-- ==== Sys2Proof/Word.lean ====
section
/-! DEFINITION. Word.lean: the word types of the machine and their plainest arithmetic (R3, R21). -/

namespace Sys2Proof

/-- One byte of memory. -/
abbrev Byte := BitVec 8

/-- The contents of an x register, of a CSR, or a virtual address (R68, R87, R257). -/
abbrev Word := BitVec 64

/-- One element group of a vector register: 256 bytes (R70); also one row of a tile (R213). -/
abbrev Group := BitVec 2048

/-- A mask register: 8,192 bits, one per byte of the largest register (R72). -/
abbrev Mask := BitVec 8192

/-- The position of a hart, 0 to 511 (R13). -/
abbrev HartId := BitVec 9

end Sys2Proof
end

