-- ==== Sys2Proof/Syntax.lean ====
section
/-! DEFINITION. Syntax.lean: the operations and events of the part, one constructor of `Instr` for each row of the
opcode table (R411; 95_what_each_step_holds.md).

Operands stand in assembly order. `d a b` are the fields [20:16], [25:21] and [30:26] that R47 and R55 call rd, rs1 and
rs2 (or vd, vs1 and vs2), `p` is the placement bit, `g` the governing mask, `c` the chain bit, `sc` a scope code of
R58, `imm` an immediate as its field holds it. An event names the hart (`h`), the controller entry (`f`), the work
(`id`) or the message it concerns. -/

namespace Sys2Proof

/-- The atomics that UALink carries (R396). -/
inductive UaOp where
  | add
  | swap
  | cas
  deriving DecidableEq, Repr

/-- A request that arrives over UALink (R396, R397). -/
inductive UaRequest where
  /-- A memory read of `len` bytes. -/
  | read (tag : Nat) (pa : Nat) (len : Nat)
  /-- A memory write; `bad` marks its data poisoned (R331). -/
  | write (tag : Nat) (pa : Nat) (data : List Byte) (bad : Bool)
  /-- An atomic of 4 bytes, or of 8 when `wide`. -/
  | atomic (tag : Nat) (op : UaOp) (pa : Nat) (wide : Bool) (operand expected : Word)
  /-- A request of a kind that the device does not implement. -/
  | unsupported (tag : Nat)
  deriving DecidableEq, Repr

/-- What arrives over Spinel from another package (R321, R402 to R406). -/
inductive SpinelRequest where
  /-- A lateral read of `len` bytes by a brim of another package. -/
  | read (tag : Nat) (pa : Nat) (len : Nat)
  /-- A lateral write; `bad` marks its data poisoned (R331). -/
  | write (tag : Nat) (pa : Nat) (data : List Byte) (bad : Bool)
  /-- A segment of another rank's part in a collective: its rank, operation, byte count, format, number and bytes. -/
  | collective (group : Byte) (name ordinal rank : Nat) (op : BitVec 2) (bytes : Nat) (fmt : BitVec 4) (seg : Nat)
      (buffer : List Byte)
  /-- Another rank aborts the matched collective, with a cause of R416. -/
  | collectiveAbort (group : Byte) (name ordinal : Nat) (cause : Byte)
  /-- The reply to a lateral read or write that this package sent; `none` is a failure. -/
  | reply (id : Nat) (data : Option (List Byte))
  deriving DecidableEq, Repr

/-- The operations and events of the part. -/
inductive Instr where
  | vadd (p : BitVec 1) (d a b : BitVec 5) (g : BitVec 3) (c : BitVec 1)  -- R120
  | vsub (p : BitVec 1) (d a b : BitVec 5) (g : BitVec 3) (c : BitVec 1)  -- R120
  | vmul (p : BitVec 1) (d a b : BitVec 5) (g : BitVec 3) (c : BitVec 1)  -- R120
  | vmulh (p : BitVec 1) (d a b : BitVec 5) (g : BitVec 3) (c : BitVec 1)  -- R120
  | vmulhn (p : BitVec 1) (d a b : BitVec 5) (g : BitVec 3) (c : BitVec 1)  -- R120
  | vmin (p : BitVec 1) (d a b : BitVec 5) (g : BitVec 3) (c : BitVec 1)  -- R120
  | vminn (p : BitVec 1) (d a b : BitVec 5) (g : BitVec 3) (c : BitVec 1)  -- R120
  | vmax (p : BitVec 1) (d a b : BitVec 5) (g : BitVec 3) (c : BitVec 1)  -- R120
  | vmaxn (p : BitVec 1) (d a b : BitVec 5) (g : BitVec 3) (c : BitVec 1)  -- R120
  | vand (p : BitVec 1) (d a b : BitVec 5) (g : BitVec 3) (c : BitVec 1)  -- R120
  | vor (p : BitVec 1) (d a b : BitVec 5) (g : BitVec 3) (c : BitVec 1)  -- R120
  | vxor (p : BitVec 1) (d a b : BitVec 5) (g : BitVec 3) (c : BitVec 1)  -- R120
  | vsll (p : BitVec 1) (d a b : BitVec 5) (g : BitVec 3) (c : BitVec 1)  -- R120
  | vsrl (p : BitVec 1) (d a b : BitVec 5) (g : BitVec 3) (c : BitVec 1)  -- R120
  | vsra (p : BitVec 1) (d a b : BitVec 5) (g : BitVec 3) (c : BitVec 1)  -- R120
  | vandn (p : BitVec 1) (d a b : BitVec 5) (g : BitVec 3) (c : BitVec 1)  -- R120
  | vdiv (p : BitVec 1) (d a b : BitVec 5) (g : BitVec 3) (c : BitVec 1)  -- R121
  | vdivn (p : BitVec 1) (d a b : BitVec 5) (g : BitVec 3) (c : BitVec 1)  -- R121
  | vrem (p : BitVec 1) (d a b : BitVec 5) (g : BitVec 3) (c : BitVec 1)  -- R121
  | vremn (p : BitVec 1) (d a b : BitVec 5) (g : BitVec 3) (c : BitVec 1)  -- R121
  | vsadd (p : BitVec 1) (d a b : BitVec 5) (g : BitVec 3) (c : BitVec 1)  -- R121
  | vsaddn (p : BitVec 1) (d a b : BitVec 5) (g : BitVec 3) (c : BitVec 1)  -- R121
  | vssub (p : BitVec 1) (d a b : BitVec 5) (g : BitVec 3) (c : BitVec 1)  -- R121
  | vssubn (p : BitVec 1) (d a b : BitVec 5) (g : BitVec 3) (c : BitVec 1)  -- R121
  | vfadd (p : BitVec 1) (d a b : BitVec 5) (g : BitVec 3) (c : BitVec 1)  -- R122
  | vfsub (p : BitVec 1) (d a b : BitVec 5) (g : BitVec 3) (c : BitVec 1)  -- R122
  | vfmul (p : BitVec 1) (d a b : BitVec 5) (g : BitVec 3) (c : BitVec 1)  -- R122
  | vfdiv (p : BitVec 1) (d a b : BitVec 5) (g : BitVec 3) (c : BitVec 1)  -- R122
  | vfmin (p : BitVec 1) (d a b : BitVec 5) (g : BitVec 3) (c : BitVec 1)  -- R122
  | vfmax (p : BitVec 1) (d a b : BitVec 5) (g : BitVec 3) (c : BitVec 1)  -- R122
  | vfsgnj (p : BitVec 1) (d a b : BitVec 5) (g : BitVec 3) (c : BitVec 1)  -- R122
  | vfsgnjn (p : BitVec 1) (d a b : BitVec 5) (g : BitVec 3) (c : BitVec 1)  -- R122
  | vfma (p : BitVec 1) (d a b : BitVec 5) (g : BitVec 3) (c : BitVec 1)  -- R123
  | vfms (p : BitVec 1) (d a b : BitVec 5) (g : BitVec 3) (c : BitVec 1)  -- R123
  | vfnma (p : BitVec 1) (d a b : BitVec 5) (g : BitVec 3) (c : BitVec 1)  -- R123
  | vfnms (p : BitVec 1) (d a b : BitVec 5) (g : BitVec 3) (c : BitVec 1)  -- R123
  | vmacc (p : BitVec 1) (d a b : BitVec 5) (g : BitVec 3) (c : BitVec 1)  -- R123
  | vmsac (p : BitVec 1) (d a b : BitVec 5) (g : BitVec 3) (c : BitVec 1)  -- R123
  | vfscale (p : BitVec 1) (d a b : BitVec 5) (g : BitVec 3) (c : BitVec 1)  -- R123
  | vabs (p : BitVec 1) (d a : BitVec 5) (g : BitVec 3) (c : BitVec 1)  -- R124
  | vneg (p : BitVec 1) (d a : BitVec 5) (g : BitVec 3) (c : BitVec 1)  -- R124
  | vnot (p : BitVec 1) (d a : BitVec 5) (g : BitVec 3) (c : BitVec 1)  -- R124
  | vclz (p : BitVec 1) (d a : BitVec 5) (g : BitVec 3) (c : BitVec 1)  -- R124
  | vpopc (p : BitVec 1) (d a : BitVec 5) (g : BitVec 3) (c : BitVec 1)  -- R124
  | vid (p : BitVec 1) (d : BitVec 5) (g : BitVec 3) (c : BitVec 1)  -- R124
  | viota (p : BitVec 1) (d m : BitVec 5) (g : BitVec 3) (c : BitVec 1)  -- R124
  | vfsqrt (p : BitVec 1) (d a : BitVec 5) (g : BitVec 3) (c : BitVec 1)  -- R125
  | vfabs (p : BitVec 1) (d a : BitVec 5) (g : BitVec 3) (c : BitVec 1)  -- R125
  | vfneg (p : BitVec 1) (d a : BitVec 5) (g : BitVec 3) (c : BitVec 1)  -- R125
  | vfclass (p : BitVec 1) (d a : BitVec 5) (g : BitVec 3) (c : BitVec 1)  -- R125
  | vfround (p : BitVec 1) (d a : BitVec 5) (g : BitVec 3) (c : BitVec 1)  -- R125
  | vfexpo (p : BitVec 1) (d a : BitVec 5) (g : BitVec 3) (c : BitVec 1)  -- R125
  | vfmant (p : BitVec 1) (d a : BitVec 5) (g : BitVec 3) (c : BitVec 1)  -- R125
  | vaddX (p : BitVec 1) (d a b : BitVec 5) (g : BitVec 3) (c : BitVec 1)  -- R126
  | vrsubX (p : BitVec 1) (d a b : BitVec 5) (g : BitVec 3) (c : BitVec 1)  -- R126
  | vmulX (p : BitVec 1) (d a b : BitVec 5) (g : BitVec 3) (c : BitVec 1)  -- R126
  | vsllX (p : BitVec 1) (d a b : BitVec 5) (g : BitVec 3) (c : BitVec 1)  -- R126
  | vfaddX (p : BitVec 1) (d a b : BitVec 5) (g : BitVec 3) (c : BitVec 1)  -- R126
  | vfrsubX (p : BitVec 1) (d a b : BitVec 5) (g : BitVec 3) (c : BitVec 1)  -- R126
  | vfmulX (p : BitVec 1) (d a b : BitVec 5) (g : BitVec 3) (c : BitVec 1)  -- R126
  | vfmaX (p : BitVec 1) (d a b : BitVec 5) (g : BitVec 3) (c : BitVec 1)  -- R126
  | vcvt (p : BitVec 1) (dst src : BitVec 4) (d a : BitVec 5) (g : BitVec 3) (c : BitVec 1)  -- R127
  | vcmpEq (m a b : BitVec 5) (g : BitVec 3) (c : BitVec 1)  -- R130
  | vcmpNe (m a b : BitVec 5) (g : BitVec 3) (c : BitVec 1)  -- R130
  | vcmpLt (m a b : BitVec 5) (g : BitVec 3) (c : BitVec 1)  -- R130
  | vcmpGe (m a b : BitVec 5) (g : BitVec 3) (c : BitVec 1)  -- R130
  | vcmpLtn (m a b : BitVec 5) (g : BitVec 3) (c : BitVec 1)  -- R130
  | vcmpGen (m a b : BitVec 5) (g : BitVec 3) (c : BitVec 1)  -- R130
  | vfcmpEq (m a b : BitVec 5) (g : BitVec 3) (c : BitVec 1)  -- R130
  | vfcmpNe (m a b : BitVec 5) (g : BitVec 3) (c : BitVec 1)  -- R130
  | vfcmpLt (m a b : BitVec 5) (g : BitVec 3) (c : BitVec 1)  -- R130
  | vfcmpLe (m a b : BitVec 5) (g : BitVec 3) (c : BitVec 1)  -- R130
  | vfcmpGt (m a b : BitVec 5) (g : BitVec 3) (c : BitVec 1)  -- R130
  | vfcmpGe (m a b : BitVec 5) (g : BitVec 3) (c : BitVec 1)  -- R130
  | vfcmpUn (m a b : BitVec 5) (g : BitVec 3) (c : BitVec 1)  -- R130
  | vslideup (p : BitVec 1) (d a b : BitVec 5) (g : BitVec 3) (c : BitVec 1)  -- R138
  | vslidedn (p : BitVec 1) (d a b : BitVec 5) (g : BitVec 3) (c : BitVec 1)  -- R138
  | vperm (p : BitVec 1) (d a b : BitVec 5) (g : BitVec 3) (c : BitVec 1)  -- R138
  | vcompress (p : BitVec 1) (d a : BitVec 5) (g : BitVec 3) (c : BitVec 1)  -- R139
  | vexpand (p : BitVec 1) (d a : BitVec 5) (g : BitVec 3) (c : BitVec 1)  -- R140
  | vconf (p : BitVec 1) (d a : BitVec 5) (g : BitVec 3) (c : BitVec 1)  -- R138
  | vsprs (p : BitVec 1) (d a : BitVec 5) (g : BitVec 3) (c : BitVec 1)  -- R141
  | vredsum (p : BitVec 1) (d a : BitVec 5) (g : BitVec 3) (c : BitVec 1)  -- R142
  | vredmin (p : BitVec 1) (d a : BitVec 5) (g : BitVec 3) (c : BitVec 1)  -- R142
  | vredminn (p : BitVec 1) (d a : BitVec 5) (g : BitVec 3) (c : BitVec 1)  -- R142
  | vredmax (p : BitVec 1) (d a : BitVec 5) (g : BitVec 3) (c : BitVec 1)  -- R142
  | vredmaxn (p : BitVec 1) (d a : BitVec 5) (g : BitVec 3) (c : BitVec 1)  -- R142
  | vfredsum (p : BitVec 1) (d a : BitVec 5) (g : BitVec 3) (c : BitVec 1)  -- R142
  | vfredmin (p : BitVec 1) (d a : BitVec 5) (g : BitVec 3) (c : BitVec 1)  -- R142
  | vfredmax (p : BitVec 1) (d a : BitVec 5) (g : BitVec 3) (c : BitVec 1)  -- R142
  | vdup (p : BitVec 1) (d a : BitVec 5) (g : BitVec 3) (c : BitVec 1)  -- R145
  | vext (p : BitVec 1) (d a b : BitVec 5) (c : BitVec 1)  -- R145
  | vins (p : BitVec 1) (d a b : BitVec 5) (c : BitVec 1)  -- R145
  | vmv (p : BitVec 1) (d a : BitVec 5) (g : BitVec 3) (c : BitVec 1)  -- R145
  | vmerge (p : BitVec 1) (d a b : BitVec 5) (g : BitVec 3) (c : BitVec 1)  -- R145
  | vmovcb (d a : BitVec 5) (g : BitVec 3)  -- R146
  | vmovbc (d a : BitVec 5) (g : BitVec 3)  -- R146
  | vscanAdd (p : BitVec 1) (d a : BitVec 5) (g : BitVec 3) (c : BitVec 1)  -- R144
  | vscanMax (p : BitVec 1) (d a : BitVec 5) (g : BitVec 3) (c : BitVec 1)  -- R144
  | vscanMin (p : BitVec 1) (d a : BitVec 5) (g : BitVec 3) (c : BitVec 1)  -- R144
  | vfscanAdd (p : BitVec 1) (d a : BitVec 5) (g : BitVec 3) (c : BitVec 1)  -- R144
  | vfscanMax (p : BitVec 1) (d a : BitVec 5) (g : BitVec 3) (c : BitVec 1)  -- R144
  | vfscanMin (p : BitVec 1) (d a : BitVec 5) (g : BitVec 3) (c : BitVec 1)  -- R144
  | vrec (p : BitVec 1) (d a b : BitVec 5) (g : BitVec 3) (c : BitVec 1)  -- R144
  | vld (p : BitVec 1) (d a : BitVec 5) (g : BitVec 3) (c : BitVec 1)  -- R148
  | vldAcq (d a : BitVec 5) (g : BitVec 3) (c : BitVec 1)  -- R152
  | vldV (d a : BitVec 5) (g : BitVec 3) (c : BitVec 1)  -- R149
  | vldL (d a : BitVec 5) (g : BitVec 3) (c : BitVec 1)  -- R149
  | vldNt (d a : BitVec 5) (g : BitVec 3) (c : BitVec 1)  -- R149
  | vlds (p : BitVec 1) (d a b : BitVec 5) (g : BitVec 3) (c : BitVec 1)  -- R148
  | vldsAcq (d a b : BitVec 5) (g : BitVec 3) (c : BitVec 1)  -- R152
  | vldsV (d a b : BitVec 5) (g : BitVec 3) (c : BitVec 1)  -- R149
  | vldsL (d a b : BitVec 5) (g : BitVec 3) (c : BitVec 1)  -- R149
  | vldsNt (d a b : BitVec 5) (g : BitVec 3) (c : BitVec 1)  -- R149
  | vldx (d a b : BitVec 5) (g : BitVec 3) (c : BitVec 1)  -- R148
  | vldxB (d a b : BitVec 5) (g : BitVec 3) (c : BitVec 1)  -- R148
  | vldxBd (d a b : BitVec 5) (g : BitVec 3) (c : BitVec 1)  -- R150
  | vldxV (d a b : BitVec 5) (g : BitVec 3) (c : BitVec 1)  -- R149
  | vldxL (d a b : BitVec 5) (g : BitVec 3) (c : BitVec 1)  -- R149
  | vldxVbd (d a b : BitVec 5) (g : BitVec 3) (c : BitVec 1)  -- R149
  | vldxLbd (d a b : BitVec 5) (g : BitVec 3) (c : BitVec 1)  -- R149
  | vst (p : BitVec 1) (d a : BitVec 5) (g : BitVec 3) (c : BitVec 1)  -- R148
  | vstV (d a : BitVec 5) (g : BitVec 3) (c : BitVec 1)  -- R149
  | vstL (d a : BitVec 5) (g : BitVec 3) (c : BitVec 1)  -- R149
  | vstNt (d a : BitVec 5) (g : BitVec 3) (c : BitVec 1)  -- R149
  | vsts (p : BitVec 1) (d a b : BitVec 5) (g : BitVec 3) (c : BitVec 1)  -- R148
  | vstsV (d a b : BitVec 5) (g : BitVec 3) (c : BitVec 1)  -- R149
  | vstsL (d a b : BitVec 5) (g : BitVec 3) (c : BitVec 1)  -- R149
  | vstsNt (d a b : BitVec 5) (g : BitVec 3) (c : BitVec 1)  -- R149
  | vstx (d a b : BitVec 5) (g : BitVec 3) (c : BitVec 1)  -- R148
  | vstxB (d a b : BitVec 5) (g : BitVec 3) (c : BitVec 1)  -- R148
  | vstxBd (d a b : BitVec 5) (g : BitVec 3) (c : BitVec 1)  -- R150
  | vstxV (d a b : BitVec 5) (g : BitVec 3) (c : BitVec 1)  -- R149
  | vstxL (d a b : BitVec 5) (g : BitVec 3) (c : BitVec 1)  -- R149
  | vstxVbd (d a b : BitVec 5) (g : BitVec 3) (c : BitVec 1)  -- R149
  | vstxLbd (d a b : BitVec 5) (g : BitVec 3) (c : BitVec 1)  -- R149
  | vwin (o a b : BitVec 5)  -- R205
  | vwred (a b : BitVec 5) (g : BitVec 3) (c : BitVec 1)  -- R206
  | vwmerge  -- R207
  | vwdrop  -- R207
  | ldB (d a : BitVec 5) (imm : BitVec 10)  -- R98
  | ldBn (d a : BitVec 5) (imm : BitVec 10)  -- R98
  | ldH (d a : BitVec 5) (imm : BitVec 10)  -- R98
  | ldHn (d a : BitVec 5) (imm : BitVec 10)  -- R98
  | ldW (d a : BitVec 5) (imm : BitVec 10)  -- R98
  | ldWn (d a : BitVec 5) (imm : BitVec 10)  -- R98
  | ldD (d a : BitVec 5) (imm : BitVec 10)  -- R98
  | ldAcqW (d a : BitVec 5) (sc : BitVec 4)  -- R164
  | ldAcqD (d a : BitVec 5) (sc : BitVec 4)  -- R164
  | stRelW (b a : BitVec 5) (sc : BitVec 4)  -- R164
  | stRelD (b a : BitVec 5) (sc : BitVec 4)  -- R164
  | amoadd (w : BitVec 1) (d b a : BitVec 5) (sc : BitVec 4)  -- R107
  | amoand (w : BitVec 1) (d b a : BitVec 5) (sc : BitVec 4)  -- R107
  | amoor (w : BitVec 1) (d b a : BitVec 5) (sc : BitVec 4)  -- R107
  | amoxor (w : BitVec 1) (d b a : BitVec 5) (sc : BitVec 4)  -- R107
  | amomin (w : BitVec 1) (d b a : BitVec 5) (sc : BitVec 4)  -- R107
  | amomax (w : BitVec 1) (d b a : BitVec 5) (sc : BitVec 4)  -- R107
  | amoswap (w : BitVec 1) (d b a : BitVec 5) (sc : BitVec 4)  -- R107
  | amocas (w : BitVec 1) (d b a : BitVec 5) (sc : BitVec 4)  -- R107
  | amoaddAcqrel (w : BitVec 1) (d b a : BitVec 5) (sc : BitVec 4)  -- R165
  | amoandAcqrel (w : BitVec 1) (d b a : BitVec 5) (sc : BitVec 4)  -- R165
  | amoorAcqrel (w : BitVec 1) (d b a : BitVec 5) (sc : BitVec 4)  -- R165
  | amoxorAcqrel (w : BitVec 1) (d b a : BitVec 5) (sc : BitVec 4)  -- R165
  | amominAcqrel (w : BitVec 1) (d b a : BitVec 5) (sc : BitVec 4)  -- R165
  | amomaxAcqrel (w : BitVec 1) (d b a : BitVec 5) (sc : BitVec 4)  -- R165
  | amoswapAcqrel (w : BitVec 1) (d b a : BitVec 5) (sc : BitVec 4)  -- R165
  | amocasAcqrel (w : BitVec 1) (d b a : BitVec 5) (sc : BitVec 4)  -- R165
  | fenceSv (sc : BitVec 4)  -- R166
  | fenceVs (sc : BitVec 4)  -- R166
  | fenceVv (sc : BitVec 4)  -- R166
  | fenceAll (sc : BitVec 4)  -- R166
  | fenceStk (n : BitVec 4)  -- R167
  | icsync (sc : BitVec 4)  -- R168
  | csrr (d : BitVec 5) (csr : BitVec 11)  -- R111
  | csrw (d : BitVec 5) (csr : BitVec 11) (a : BitVec 5)  -- R111
  | csrs (d : BitVec 5) (csr : BitVec 11) (a : BitVec 5)  -- R111
  | csrc (d : BitVec 5) (csr : BitVec 11) (a : BitVec 5)  -- R111
  | vcfg (d : BitVec 5) (cnt : BitVec 2) (sew : BitVec 3) (alt : BitVec 1)  -- R117
  | copyL (d a b : BitVec 5)  -- R343
  | copy2d (d a b : BitVec 5)  -- R343
  | copyG (d a b : BitVec 5)  -- R343
  | copyS (d a b : BitVec 5)  -- R343
  | embw (d a b : BitVec 5)  -- R351
  | stprobe (m : BitVec 4) (v a b : BitVec 5)  -- R358
  | stfill (v a b : BitVec 5) (g : BitVec 3)  -- R361
  | stctlStream (a b : BitVec 5)  -- R362
  | stctlAsid (a b : BitVec 5)  -- R362
  | stctlAll (a b : BitVec 5)  -- R362
  | cname (n a b : BitVec 5)  -- R404
  | collAllReduce (n a b : BitVec 5)  -- R404
  | collAllGather (n a b : BitVec 5)  -- R404
  | collReduceScatter (n a b : BitVec 5)  -- R404
  | pmig (a b : BitVec 5)  -- R338
  | awadd (a b : BitVec 5) (sc : BitVec 4)  -- R196
  | carrive (a b : BitVec 5)  -- R246
  | launch (d a : BitVec 5)  -- R281
  | farmnext (d : BitVec 5)  -- R288
  | retire  -- R289
  | bsync  -- R326
  | cLdW (d a : BitVec 3) (imm : BitVec 5)  -- R46
  | cLdD (d : BitVec 3) (imm : BitVec 6)  -- R46
  | mshape (xs : BitVec 5)  -- R223
  | mzero (t : BitVec 1)  -- R224
  | mma (t : BitVec 1) (va vb : BitVec 5) (fa fb : BitVec 4) (neg sat ovw : BitVec 1)  -- R225
  | mmas (t : BitVec 1) (va vb vx : BitVec 5) (fa fb : BitVec 4) (neg sat ovw : BitVec 1)  -- R226
  | mmag (t : BitVec 1) (va vb xs : BitVec 5) (fa fb : BitVec 4) (neg sat ovw : BitVec 1)  -- R228
  | mmax (t : BitVec 1) (va vb vx : BitVec 5) (fa fb : BitVec 4) (neg sat ovw : BitVec 1)  -- R227
  | mtv (va : BitVec 5) (t : BitVec 1) (xs : BitVec 5)  -- R229
  | mvt (t : BitVec 1) (va xs : BitVec 5)  -- R229
  | msync  -- R230
  | add (d a b : BitVec 5)  -- R93
  | sub (d a b : BitVec 5)  -- R93
  | and (d a b : BitVec 5)  -- R93
  | or (d a b : BitVec 5)  -- R93
  | xor (d a b : BitVec 5)  -- R93
  | andn (d a b : BitVec 5)  -- R93
  | sll (d a b : BitVec 5)  -- R93
  | srl (d a b : BitVec 5)  -- R93
  | sra (d a b : BitVec 5)  -- R93
  | slt (d a b : BitVec 5)  -- R93
  | sltn (d a b : BitVec 5)  -- R93
  | min (d a b : BitVec 5)  -- R93
  | minn (d a b : BitVec 5)  -- R93
  | max (d a b : BitVec 5)  -- R93
  | maxn (d a b : BitVec 5)  -- R93
  | mul (d a b : BitVec 5)  -- R93
  | mulh (d a b : BitVec 5)  -- R93
  | mulhn (d a b : BitVec 5)  -- R93
  | div (d a b : BitVec 5)  -- R94
  | divn (d a b : BitVec 5)  -- R94
  | rem (d a b : BitVec 5)  -- R94
  | remn (d a b : BitVec 5)  -- R94
  | clz (d a : BitVec 5)  -- R93
  | ctz (d a : BitVec 5)  -- R93
  | popc (d a : BitVec 5)  -- R93
  | sextB (d a : BitVec 5)  -- R93
  | sextH (d a : BitVec 5)  -- R93
  | sextW (d a : BitVec 5)  -- R93
  | zextW (d a : BitVec 5)  -- R93
  | addw (d a b : BitVec 5)  -- R95
  | subw (d a b : BitVec 5)  -- R95
  | sllw (d a b : BitVec 5)  -- R95
  | srlw (d a b : BitVec 5)  -- R95
  | sraw (d a b : BitVec 5)  -- R95
  | mulw (d a b : BitVec 5)  -- R95
  | divw (d a b : BitVec 5)  -- R95
  | divnw (d a b : BitVec 5)  -- R95
  | remw (d a b : BitVec 5)  -- R95
  | remnw (d a b : BitVec 5)  -- R95
  | addi (d a : BitVec 5) (imm : BitVec 13)  -- R96
  | andi (d a : BitVec 5) (imm : BitVec 10)  -- R96
  | ori (d a : BitVec 5) (imm : BitVec 10)  -- R96
  | xori (d a : BitVec 5) (imm : BitVec 10)  -- R96
  | slti (d a : BitVec 5) (imm : BitVec 10)  -- R96
  | sltni (d a : BitVec 5) (imm : BitVec 10)  -- R96
  | slli (d a : BitVec 5) (imm : BitVec 6)  -- R96
  | srli (d a : BitVec 5) (imm : BitVec 6)  -- R96
  | srai (d a : BitVec 5) (imm : BitVec 6)  -- R96
  | lhi (d : BitVec 5) (imm : BitVec 18)  -- R97
  | pcadd (d : BitVec 5) (imm : BitVec 18)  -- R97
  | stB (b a : BitVec 5) (imm : BitVec 10)  -- R98
  | stH (b a : BitVec 5) (imm : BitVec 10)  -- R98
  | stW (b a : BitVec 5) (imm : BitVec 10)  -- R98
  | stD (b a : BitVec 5) (imm : BitVec 10)  -- R98
  | beq (a b : BitVec 5) (imm : BitVec 11)  -- R101
  | bne (a b : BitVec 5) (imm : BitVec 11)  -- R101
  | blt (a b : BitVec 5) (imm : BitVec 11)  -- R101
  | bge (a b : BitVec 5) (imm : BitVec 11)  -- R101
  | bltn (a b : BitVec 5) (imm : BitVec 11)  -- R101
  | bgen (a b : BitVec 5) (imm : BitVec 11)  -- R101
  | bbs (a b : BitVec 5) (imm : BitVec 11)  -- R101
  | bbc (a b : BitVec 5) (imm : BitVec 11)  -- R101
  | jal (d : BitVec 5) (imm : BitVec 18)  -- R102
  | jalr (d a : BitVec 5) (imm : BitVec 13)  -- R102
  | loop (k : BitVec 1) (a : BitVec 5) (imm : BitVec 13)  -- R103
  | ecall  -- R114
  | ebreak  -- R114
  | eret  -- R115
  | uret  -- R115
  | pause  -- R116
  | fadd (t : BitVec 2) (d a b : BitVec 5)  -- R109
  | fsub (t : BitVec 2) (d a b : BitVec 5)  -- R109
  | fmul (t : BitVec 2) (d a b : BitVec 5)  -- R109
  | fdiv (t : BitVec 2) (d a b : BitVec 5)  -- R109
  | fsqrt (t : BitVec 2) (d a : BitVec 5)  -- R109
  | fmin (t : BitVec 2) (d a b : BitVec 5)  -- R109
  | fmax (t : BitVec 2) (d a b : BitVec 5)  -- R109
  | fsgnj (t : BitVec 2) (d a b : BitVec 5)  -- R109
  | fsgnjn (t : BitVec 2) (d a b : BitVec 5)  -- R109
  | fsgnjx (t : BitVec 2) (d a b : BitVec 5)  -- R109
  | feq (t : BitVec 2) (d a b : BitVec 5)  -- R109
  | flt (t : BitVec 2) (d a b : BitVec 5)  -- R109
  | fle (t : BitVec 2) (d a b : BitVec 5)  -- R109
  | fclass (t : BitVec 2) (d a : BitVec 5)  -- R109
  | fcvtI (t : BitVec 2) (u : BitVec 1) (d a : BitVec 5)  -- R109
  | fcvtF (t : BitVec 2) (u : BitVec 1) (d a : BitVec 5)  -- R109
  | fcvtFf (t g : BitVec 2) (d a : BitVec 5)  -- R109
  | fma (f : BitVec 1) (d a b e : BitVec 5)  -- R110
  | fms (f : BitVec 1) (d a b e : BitVec 5)  -- R110
  | fnma (f : BitVec 1) (d a b e : BitVec 5)  -- R110
  | fnms (f : BitVec 1) (d a b e : BitVec 5)  -- R110
  | whileLt (m a b : BitVec 5)  -- R131
  | whileLe (m a b : BitVec 5)  -- R131
  | whileLtn (m a b : BitVec 5)  -- R131
  | whileLen (m a b : BitVec 5)  -- R131
  | mand (d a b : BitVec 5) (g : BitVec 3)  -- R133
  | mor (d a b : BitVec 5) (g : BitVec 3)  -- R133
  | mxor (d a b : BitVec 5) (g : BitVec 3)  -- R133
  | mandn (d a b : BitVec 5) (g : BitVec 3)  -- R133
  | mnot (d a : BitVec 5) (g : BitVec 3)  -- R133
  | mmov (d a : BitVec 5) (g : BitVec 3)  -- R133
  | mff (d a : BitVec 5) (g : BitVec 3)  -- R133
  | mset (d : BitVec 5) (g : BitVec 3)  -- R133
  | mclr (d : BitVec 5) (g : BitVec 3)  -- R133
  | mbset (d a : BitVec 5)  -- R134
  | mbclr (d a : BitVec 5)  -- R134
  | mpop (d a : BitVec 5) (g : BitVec 3)  -- R134
  | mfirst (d a : BitVec 5) (g : BitVec 3)  -- R134
  | mbrk (d a : BitVec 5) (g : BitVec 3)  -- R134
  | awarm (a b : BitVec 5)  -- R196
  | waitGen (a b : BitVec 5) (sc : BitVec 4)  -- R196
  | waitNe (a b : BitVec 5) (sc : BitVec 4)  -- R196
  | cwait (a b : BitVec 5)  -- R247
  | gbar  -- R291
  | cAddi (d : BitVec 3) (imm : BitVec 7)  -- R46
  | cLi (d : BitVec 3) (imm : BitVec 7)  -- R46
  | cLhi (d : BitVec 3) (imm : BitVec 7)  -- R46
  | cSlli (d : BitVec 3) (imm : BitVec 6)  -- R46
  | cSrli (d : BitVec 3) (imm : BitVec 6)  -- R46
  | cSrai (d : BitVec 3) (imm : BitVec 6)  -- R46
  | cAdd (d a : BitVec 3)  -- R46
  | cSub (d a : BitVec 3)  -- R46
  | cMv (d a : BitVec 3)  -- R46
  | cAnd (d a : BitVec 3)  -- R46
  | cOr (d a : BitVec 3)  -- R46
  | cXor (d a : BitVec 3)  -- R46
  | cStW (b a : BitVec 3) (imm : BitVec 5)  -- R46
  | cStD (b : BitVec 3) (imm : BitVec 6)  -- R46
  | cJ (imm : BitVec 13)  -- R46
  | cBeqz (a : BitVec 3) (imm : BitVec 9)  -- R46
  | cBnez (a : BitVec 3) (imm : BitVec 9)  -- R46
  | cJr (a : BitVec 5)  -- R46
  | cJalr (a : BitVec 5)  -- R46
  | cRet  -- R46
  | cNop  -- R46
  | cEbreak  -- R46
  | convoyGroupCommit (h : HartId)  -- R79
  | brimGroupCommit (h : HartId)  -- R317
  | brimConvoyComplete (h : HartId)  -- R317
  | brimSyncSend (h : HartId)  -- R143
  | bsyncDone (h : HartId)  -- R326
  | vcfgReshape (h : HartId)  -- R71
  | fenceDone (h : HartId)  -- R166
  | icsyncDone (h : HartId)  -- R168
  | csrWriteApply (h : HartId)  -- R113
  | releaseStorePerform (h : HartId)  -- R164
  | awaddContribution (h : HartId)  -- R196
  | nearMemoryAtomic (h : HartId)  -- R325
  | loadDataReturn (h : HartId)  -- R100
  | waitWake (h : HartId)  -- R199
  | gbarRelease (f : BitVec 6)  -- R291
  | carriveArrival (h : HartId)  -- R246
  | pauseExpiry (h : HartId)  -- R116
  | issueFairness (h : HartId)  -- R186
  | clockGate (h : HartId)  -- R200
  | powerGate (core : BitVec 7)  -- R200
  | residencyReport (h : HartId)  -- R201
  | matrixPost (h : HartId)  -- R218
  | matrixEntryComplete (h : HartId)  -- R219
  | mtvPost (h : HartId)  -- R229
  | mshapeApply (h : HartId)  -- R223
  | msyncDone (h : HartId)  -- R230
  | translationWalkDone (h : HartId)  -- R262
  | walkerFailure (w : BitVec 5)  -- R276
  | xinvComplete (h : HartId)  -- R268
  | launchHandoff (h : HartId)  -- R281
  | launchAccept  -- R279
  | dependenceReached (f : BitVec 6)  -- R284
  | farmServe  -- R285
  | sliceSpillDone  -- R295
  | hartStart  -- R287
  | stripHandout (h : HartId)  -- R288
  | retireLeave (h : HartId)  -- R289
  | farmComplete (f : BitVec 6)  -- R290
  | farmFail (f : BitVec 6) (cause : BitVec 12)  -- R300
  | starvationPromotion (f : BitVec 6)  -- R293
  | engineEnqueue (h : HartId)  -- R339
  | copyChunkDelivery (id chunk : Nat)  -- R346
  | embeddingRecordDone (id rec : Nat)  -- R355
  | probeDecision (id : Nat)  -- R360
  | tileSettled (id tile : Nat)  -- R360
  | fillEntry (id : Nat)  -- R361
  | stctlDone (h : HartId)  -- R362
  | collComplete (id : Nat)  -- R406
  | collTimeout (id : Nat)  -- R404
  | pmigCopyDone (h : HartId)  -- R338
  | dramRatioChange (st : BitVec 4)  -- R334
  | crownLatencyTarget (st : BitVec 4) (oneLeft : Bool)  -- R335
  | ualinkRequestIn (r : UaRequest)  -- R397
  | ualinkResponse (id : Nat) (failed : Bool) (data : List Byte)  -- R397
  | ualinkRequestTimeout (id : Nat)  -- R399
  | ualinkLaneFailure (port : BitVec 5) (lane : BitVec 2)  -- R396
  | spinelLinkFailed (port : BitVec 3)  -- R400
  | clusterLinkFailed (cl : BitVec 5) (a b : BitVec 2)  -- R251
  | berylPortDown  -- R395
  | berylPortUp  -- R395
  | mwrite (tag : BitVec 32) (pa : Word) (len : BitVec 32) (data : List Byte)  -- R393
  | mread (tag : BitVec 32) (pa : Word) (len : BitVec 32)  -- R393
  | launchMessage (tag : BitVec 32) (record ptbase tvec tdeleg : Word) (mode : Byte)  -- R280
  | signal (tag : BitVec 32) (pa : Word) (bytes : BitVec 32)  -- R394
  | replay (tag : BitVec 32) (n : Word)  -- R272
  | attest (tag : BitVec 32) (nonce : List Byte)  -- R388
  | attestReply  -- R388
  | malformedMessage (tag : BitVec 32)  -- R392
  | mgmtIdentify (tag : BitVec 32)  -- R2
  | mgmtReset (tag : BitVec 32)  -- R383
  | mgmtCsrWrite (tag : BitVec 32) (num v : Word)  -- R393
  | mgmtCsrRead (tag : BitVec 32) (num : Word)  -- R393
  | mgmtExtend (tag : BitVec 32) (digest : List Byte)  -- R387
  | mgmtFirmwareWrite (tag : BitVec 32) (off len : Word) (data : List Byte)  -- R393
  | mgmtSetIdentity (tag : BitVec 32) (pkg : BitVec 16) (coord : Word)  -- R393
  | mgmtEndFarm (tag : BitVec 32) (farmid : Word)  -- R301
  | powerGood  -- R384
  | berylTrained  -- R384
  | firmwareVerify  -- R384
  | trainingDone  -- R384
  | thermalTrip (temp : Byte)  -- R379
  | throttle (crown brim : Byte)  -- R379
  | fpctlWrite (h : HartId)  -- R24
  | ffxWrite (h : HartId)  -- R90
  | bsumWrite (h : HartId)  -- R332
  | ptbaseWrite (h : HartId)  -- R267
  | xinvPage (h : HartId)  -- R268
  | xinvAll (h : HartId)  -- R268
  | fbtailWrite (h : HartId)  -- R273
  | fbbaseWrite (h : HartId)  -- R271
  | fbsizeWrite (h : HartId)  -- R271
  | spbaseWrite (h : HartId)  -- R298
  | spsizeWrite (h : HartId)  -- R298
  | bsaveWrite (h : HartId)  -- R337
  | pwrcapWrite (h : HartId)  -- R382
  | stabaseWrite (h : HartId)  -- R364
  | stalimitWrite (h : HartId)  -- R364
  | acdataRead (h : HartId)  -- R337
  | stcdataRead (h : HartId)  -- R364
  | wstatRead (h : HartId)  -- R202
  | cerrRead (h : HartId)  -- R202
  | fcstatRead (h : HartId)  -- R298
  | brstatRead (h : HartId)  -- R337
  | pwrstatRead (h : HartId)  -- R382
  | registerWrite (h : HartId)  -- R8
  | powerRemoved  -- R381
  | notAnInstruction  -- R43
  | instructionFetchFault  -- R42
  | spinelRequestIn (r : SpinelRequest)  -- R321
  | crownToStackLinkFailed (st : BitVec 4)  -- R389
  | failedRead (h : HartId) (loc : Nat)  -- R330
  | storePerformed (h : HartId) (n : Nat)  -- R243
  deriving DecidableEq, Repr

end Sys2Proof
end

