-- ==== Sys2Proof/WellFormed.lean ====
section
/-! DEFINITION. WellFormed.lean: which instructions have an encoding that the spec calls an instruction, whatever state
the hart is in (R43, R46, R50, R54, R55, R58 to R60, R127). The checks that read VCFG, the mode or the CSR map are made
where the instruction issues. -/

namespace Sys2Proof

/-- A scope code names a scope: codes 11 to 15 are reserved (R58). -/
def scopeOk (sc : BitVec 4) : Bool := decide (sc.toNat ≤ 10)

/-- A mask field names m0 to m23 (R43). -/
def maskOk (m : BitVec 5) : Bool := decide (m.toNat ≤ 23)

/-- A format code that fmtA and fmtB of a matrix instruction may hold (R50). -/
def matrixFmtOk (f : BitVec 4) : Bool := decide (f.toNat ≤ 6) || decide (f = 8#4)

/-- The width in bits of a format code (R57). -/
def fmtWidth (f : BitVec 4) : Nat :=
  match f.toNat with
  | 0x0 => 64
  | 0x1 => 32
  | 0x2 => 16
  | 0x3 => 16
  | 0x6 => 4
  | 0xA => 16
  | 0xB => 16
  | 0xC => 32
  | 0xD => 32
  | 0xE => 64
  | 0xF => 64
  | _ => 8

/-- A window operation code that is not reserved (R55). -/
def windowOpOk (o : BitVec 5) : Bool :=
  decide (o.toNat ≤ 4) || (decide (8 ≤ o.toNat) && decide (o.toNat ≤ 10))

/-- A VCFG encoding that is not reserved (R59): count code 3, SEW codes 5 to 7, and ALT with SEW 64, 32 or 4. -/
def vcfgOk (cnt : BitVec 2) (sew : BitVec 3) (alt : BitVec 1) : Bool :=
  decide (cnt ≠ 3#2) && decide (sew.toNat ≤ 4) && (decide (alt = 0#1) || decide (sew = 1#3) || decide (sew = 2#3))

/-- The instruction has an encoding that is an instruction. Events have no encoding and are well-formed. -/
def Instr.wf (i : Instr) : Bool :=
  match i with
  | .add _ _ _ => true
  | .sub _ _ _ => true
  | .and _ _ _ => true
  | .or _ _ _ => true
  | .xor _ _ _ => true
  | .andn _ _ _ => true
  | .sll _ _ _ => true
  | .srl _ _ _ => true
  | .sra _ _ _ => true
  | .slt _ _ _ => true
  | .sltn _ _ _ => true
  | .min _ _ _ => true
  | .minn _ _ _ => true
  | .max _ _ _ => true
  | .maxn _ _ _ => true
  | .mul _ _ _ => true
  | .mulh _ _ _ => true
  | .mulhn _ _ _ => true
  | .div _ _ _ => true
  | .divn _ _ _ => true
  | .rem _ _ _ => true
  | .remn _ _ _ => true
  | .clz _ _ => true
  | .ctz _ _ => true
  | .popc _ _ => true
  | .sextB _ _ => true
  | .sextH _ _ => true
  | .sextW _ _ => true
  | .zextW _ _ => true
  | .addw _ _ _ => true
  | .subw _ _ _ => true
  | .sllw _ _ _ => true
  | .srlw _ _ _ => true
  | .sraw _ _ _ => true
  | .mulw _ _ _ => true
  | .divw _ _ _ => true
  | .divnw _ _ _ => true
  | .remw _ _ _ => true
  | .remnw _ _ _ => true
  | .addi _ _ _ => true
  | .andi _ _ _ => true
  | .ori _ _ _ => true
  | .xori _ _ _ => true
  | .slti _ _ _ => true
  | .sltni _ _ _ => true
  | .slli _ _ _ => true
  | .srli _ _ _ => true
  | .srai _ _ _ => true
  | .lhi _ _ => true
  | .pcadd _ _ => true
  | .ldB _ _ _ => true
  | .ldBn _ _ _ => true
  | .ldH _ _ _ => true
  | .ldHn _ _ _ => true
  | .ldW _ _ _ => true
  | .ldWn _ _ _ => true
  | .ldD _ _ _ => true
  | .stB _ _ _ => true
  | .stH _ _ _ => true
  | .stW _ _ _ => true
  | .stD _ _ _ => true
  | .ldAcqW _ _ sc => scopeOk sc
  | .ldAcqD _ _ sc => scopeOk sc
  | .stRelW _ _ sc => scopeOk sc
  | .stRelD _ _ sc => scopeOk sc
  | .beq _ _ _ => true
  | .bne _ _ _ => true
  | .blt _ _ _ => true
  | .bge _ _ _ => true
  | .bltn _ _ _ => true
  | .bgen _ _ _ => true
  | .bbs _ _ _ => true
  | .bbc _ _ _ => true
  | .jal _ _ => true
  | .jalr _ _ _ => true
  | .loop _ _ imm => decide (3 ≤ imm.toNat)
  | .amoadd _ _ _ _ sc => scopeOk sc
  | .amoand _ _ _ _ sc => scopeOk sc
  | .amoor _ _ _ _ sc => scopeOk sc
  | .amoxor _ _ _ _ sc => scopeOk sc
  | .amomin _ _ _ _ sc => scopeOk sc
  | .amomax _ _ _ _ sc => scopeOk sc
  | .amoswap _ _ _ _ sc => scopeOk sc
  | .amocas _ _ _ _ sc => scopeOk sc
  | .amoaddAcqrel _ _ _ _ sc => scopeOk sc
  | .amoandAcqrel _ _ _ _ sc => scopeOk sc
  | .amoorAcqrel _ _ _ _ sc => scopeOk sc
  | .amoxorAcqrel _ _ _ _ sc => scopeOk sc
  | .amominAcqrel _ _ _ _ sc => scopeOk sc
  | .amomaxAcqrel _ _ _ _ sc => scopeOk sc
  | .amoswapAcqrel _ _ _ _ sc => scopeOk sc
  | .amocasAcqrel _ _ _ _ sc => scopeOk sc
  | .fenceSv sc => scopeOk sc
  | .fenceVs sc => scopeOk sc
  | .fenceVv sc => scopeOk sc
  | .fenceAll sc => scopeOk sc
  | .fenceStk _ => true
  | .icsync sc => scopeOk sc && decide (sc ≠ 5#4) && decide (sc ≠ 6#4)
  | .ecall => true
  | .ebreak => true
  | .eret => true
  | .uret => true
  | .pause => true
  | .csrr _ _ => true
  | .csrw _ _ _ => true
  | .csrs _ _ _ => true
  | .csrc _ _ _ => true
  | .fadd _ _ _ _ => true
  | .fsub _ _ _ _ => true
  | .fmul _ _ _ _ => true
  | .fdiv _ _ _ _ => true
  | .fsqrt _ _ _ => true
  | .fmin _ _ _ _ => true
  | .fmax _ _ _ _ => true
  | .fsgnj _ _ _ _ => true
  | .fsgnjn _ _ _ _ => true
  | .fsgnjx _ _ _ _ => true
  | .feq _ _ _ _ => true
  | .flt _ _ _ _ => true
  | .fle _ _ _ _ => true
  | .fclass _ _ _ => true
  | .fcvtI _ _ _ _ => true
  | .fcvtF _ _ _ _ => true
  | .fcvtFf _ _ _ _ => true
  | .fma _ _ _ _ _ => true
  | .fms _ _ _ _ _ => true
  | .fnma _ _ _ _ _ => true
  | .fnms _ _ _ _ _ => true
  | .vcfg _ cnt sew alt => vcfgOk cnt sew alt
  | .vadd _ _ _ _ _ _ => true
  | .vsub _ _ _ _ _ _ => true
  | .vmul _ _ _ _ _ _ => true
  | .vmulh _ _ _ _ _ _ => true
  | .vmulhn _ _ _ _ _ _ => true
  | .vmin _ _ _ _ _ _ => true
  | .vminn _ _ _ _ _ _ => true
  | .vmax _ _ _ _ _ _ => true
  | .vmaxn _ _ _ _ _ _ => true
  | .vand _ _ _ _ _ _ => true
  | .vor _ _ _ _ _ _ => true
  | .vxor _ _ _ _ _ _ => true
  | .vsll _ _ _ _ _ _ => true
  | .vsrl _ _ _ _ _ _ => true
  | .vsra _ _ _ _ _ _ => true
  | .vandn _ _ _ _ _ _ => true
  | .vdiv _ _ _ _ _ _ => true
  | .vdivn _ _ _ _ _ _ => true
  | .vrem _ _ _ _ _ _ => true
  | .vremn _ _ _ _ _ _ => true
  | .vsadd _ _ _ _ _ _ => true
  | .vsaddn _ _ _ _ _ _ => true
  | .vssub _ _ _ _ _ _ => true
  | .vssubn _ _ _ _ _ _ => true
  | .vfadd _ _ _ _ _ _ => true
  | .vfsub _ _ _ _ _ _ => true
  | .vfmul _ _ _ _ _ _ => true
  | .vfdiv _ _ _ _ _ _ => true
  | .vfmin _ _ _ _ _ _ => true
  | .vfmax _ _ _ _ _ _ => true
  | .vfsgnj _ _ _ _ _ _ => true
  | .vfsgnjn _ _ _ _ _ _ => true
  | .vfma _ _ _ _ _ _ => true
  | .vfms _ _ _ _ _ _ => true
  | .vfnma _ _ _ _ _ _ => true
  | .vfnms _ _ _ _ _ _ => true
  | .vmacc _ _ _ _ _ _ => true
  | .vmsac _ _ _ _ _ _ => true
  | .vfscale _ _ _ _ _ _ => true
  | .vabs _ _ _ _ _ => true
  | .vneg _ _ _ _ _ => true
  | .vnot _ _ _ _ _ => true
  | .vclz _ _ _ _ _ => true
  | .vpopc _ _ _ _ _ => true
  | .vid _ _ _ _ => true
  | .viota _ _ m _ _ => maskOk m
  | .vfsqrt _ _ _ _ _ => true
  | .vfabs _ _ _ _ _ => true
  | .vfneg _ _ _ _ _ => true
  | .vfclass _ _ _ _ _ => true
  | .vfround _ _ _ _ _ => true
  | .vfexpo _ _ _ _ _ => true
  | .vfmant _ _ _ _ _ => true
  | .vaddX _ _ _ _ _ _ => true
  | .vrsubX _ _ _ _ _ _ => true
  | .vmulX _ _ _ _ _ _ => true
  | .vsllX _ _ _ _ _ _ => true
  | .vfaddX _ _ _ _ _ _ => true
  | .vfrsubX _ _ _ _ _ _ => true
  | .vfmulX _ _ _ _ _ _ => true
  | .vfmaX _ _ _ _ _ _ => true
  | .vcvt _ dst src d a _ _ => decide (dst ≠ src) && (decide (d ≠ a) || decide (fmtWidth dst = fmtWidth src))
  | .vcmpEq m _ _ _ _ => maskOk m
  | .vcmpNe m _ _ _ _ => maskOk m
  | .vcmpLt m _ _ _ _ => maskOk m
  | .vcmpGe m _ _ _ _ => maskOk m
  | .vcmpLtn m _ _ _ _ => maskOk m
  | .vcmpGen m _ _ _ _ => maskOk m
  | .vfcmpEq m _ _ _ _ => maskOk m
  | .vfcmpNe m _ _ _ _ => maskOk m
  | .vfcmpLt m _ _ _ _ => maskOk m
  | .vfcmpLe m _ _ _ _ => maskOk m
  | .vfcmpGt m _ _ _ _ => maskOk m
  | .vfcmpGe m _ _ _ _ => maskOk m
  | .vfcmpUn m _ _ _ _ => maskOk m
  | .whileLt m _ _ => maskOk m
  | .whileLe m _ _ => maskOk m
  | .whileLtn m _ _ => maskOk m
  | .whileLen m _ _ => maskOk m
  | .mand d a b _ => maskOk d && maskOk a && maskOk b
  | .mor d a b _ => maskOk d && maskOk a && maskOk b
  | .mxor d a b _ => maskOk d && maskOk a && maskOk b
  | .mandn d a b _ => maskOk d && maskOk a && maskOk b
  | .mnot d a _ => maskOk d && maskOk a
  | .mmov d a _ => maskOk d && maskOk a
  | .mff d a _ => maskOk d && maskOk a
  | .mset d _ => maskOk d
  | .mclr d _ => maskOk d
  | .mbset d _ => maskOk d
  | .mbclr d _ => maskOk d
  | .mpop _ a _ => maskOk a
  | .mfirst _ a _ => maskOk a
  | .mbrk d a _ => maskOk d && maskOk a
  | .vslideup _ _ _ _ _ _ => true
  | .vslidedn _ _ _ _ _ _ => true
  | .vperm _ _ _ _ _ _ => true
  | .vcompress _ _ _ _ _ => true
  | .vexpand _ _ _ _ _ => true
  | .vconf _ _ _ _ _ => true
  | .vsprs _ _ _ _ _ => true
  | .vredsum _ _ _ _ _ => true
  | .vredmin _ _ _ _ _ => true
  | .vredminn _ _ _ _ _ => true
  | .vredmax _ _ _ _ _ => true
  | .vredmaxn _ _ _ _ _ => true
  | .vfredsum _ _ _ _ _ => true
  | .vfredmin _ _ _ _ _ => true
  | .vfredmax _ _ _ _ _ => true
  | .vdup _ _ _ _ _ => true
  | .vext _ _ _ _ _ => true
  | .vins _ _ _ _ _ => true
  | .vmv _ _ _ _ _ => true
  | .vmerge _ _ _ _ _ _ => true
  | .vmovcb _ _ _ => true
  | .vmovbc _ _ _ => true
  | .vscanAdd _ _ _ _ _ => true
  | .vscanMax _ _ _ _ _ => true
  | .vscanMin _ _ _ _ _ => true
  | .vfscanAdd _ _ _ _ _ => true
  | .vfscanMax _ _ _ _ _ => true
  | .vfscanMin _ _ _ _ _ => true
  | .vrec _ _ _ _ _ _ => true
  | .vld _ _ _ _ _ => true
  | .vldAcq _ _ _ _ => true
  | .vldV _ _ _ _ => true
  | .vldL _ _ _ _ => true
  | .vldNt _ _ _ _ => true
  | .vlds _ _ _ _ _ _ => true
  | .vldsAcq _ _ _ _ _ => true
  | .vldsV _ _ _ _ _ => true
  | .vldsL _ _ _ _ _ => true
  | .vldsNt _ _ _ _ _ => true
  | .vldx _ _ _ _ _ => true
  | .vldxB _ _ _ _ _ => true
  | .vldxBd _ _ _ _ _ => true
  | .vldxV _ _ _ _ _ => true
  | .vldxL _ _ _ _ _ => true
  | .vldxVbd _ _ _ _ _ => true
  | .vldxLbd _ _ _ _ _ => true
  | .vst _ _ _ _ _ => true
  | .vstV _ _ _ _ => true
  | .vstL _ _ _ _ => true
  | .vstNt _ _ _ _ => true
  | .vsts _ _ _ _ _ _ => true
  | .vstsV _ _ _ _ _ => true
  | .vstsL _ _ _ _ _ => true
  | .vstsNt _ _ _ _ _ => true
  | .vstx _ _ _ _ _ => true
  | .vstxB _ _ _ _ _ => true
  | .vstxBd _ _ _ _ _ => true
  | .vstxV _ _ _ _ _ => true
  | .vstxL _ _ _ _ _ => true
  | .vstxVbd _ _ _ _ _ => true
  | .vstxLbd _ _ _ _ _ => true
  | .vwin o _ _ => windowOpOk o
  | .vwred _ _ _ _ => true
  | .vwmerge => true
  | .vwdrop => true
  | .copyL _ _ _ => true
  | .copy2d _ _ _ => true
  | .copyG _ _ _ => true
  | .copyS _ _ _ => true
  | .embw _ _ _ => true
  | .stprobe m _ _ _ => decide (m ≠ 0#4)
  | .stfill _ _ _ _ => true
  | .stctlStream _ _ => true
  | .stctlAsid _ _ => true
  | .stctlAll _ _ => true
  | .cname _ _ _ => true
  | .collAllReduce _ _ _ => true
  | .collAllGather _ _ _ => true
  | .collReduceScatter _ _ _ => true
  | .pmig _ _ => true
  | .awarm _ _ => true
  | .awadd _ _ sc => scopeOk sc
  | .waitGen _ _ sc => scopeOk sc
  | .waitNe _ _ sc => scopeOk sc
  | .carrive _ _ => true
  | .cwait _ _ => true
  | .gbar => true
  | .launch _ _ => true
  | .farmnext _ => true
  | .retire => true
  | .bsync => true
  | .cAddi _ imm => decide (imm ≠ 0#7)
  | .cLi _ _ => true
  | .cLhi _ _ => true
  | .cSlli _ _ => true
  | .cSrli _ _ => true
  | .cSrai _ _ => true
  | .cAdd _ _ => true
  | .cSub _ _ => true
  | .cMv _ _ => true
  | .cAnd _ _ => true
  | .cOr _ _ => true
  | .cXor _ _ => true
  | .cLdW _ _ _ => true
  | .cStW _ _ _ => true
  | .cLdD _ _ => true
  | .cStD _ _ => true
  | .cJ _ => true
  | .cBeqz _ _ => true
  | .cBnez _ _ => true
  | .cJr a => decide (a ≠ 0#5)
  | .cJalr a => decide (a ≠ 0#5)
  | .cRet => true
  | .cNop => true
  | .cEbreak => true
  | .mshape _ => true
  | .mzero _ => true
  | .mma _ _ _ fa fb _ _ _ => matrixFmtOk fa && matrixFmtOk fb
  | .mmas _ _ _ _ fa fb _ _ _ => matrixFmtOk fa && matrixFmtOk fb
  | .mmag _ _ _ _ fa fb _ _ _ => matrixFmtOk fa && matrixFmtOk fb
  | .mmax _ _ _ _ fa fb _ _ _ => matrixFmtOk fa && matrixFmtOk fb
  | .mtv _ _ _ => true
  | .mvt _ _ _ => true
  | .msync => true
  | .convoyGroupCommit _ => true
  | .brimGroupCommit _ => true
  | .brimConvoyComplete _ => true
  | .brimSyncSend _ => true
  | .bsyncDone _ => true
  | .vcfgReshape _ => true
  | .fenceDone _ => true
  | .icsyncDone _ => true
  | .csrWriteApply _ => true
  | .releaseStorePerform _ => true
  | .awaddContribution _ => true
  | .nearMemoryAtomic _ => true
  | .loadDataReturn _ => true
  | .waitWake _ => true
  | .gbarRelease _ => true
  | .carriveArrival _ => true
  | .pauseExpiry _ => true
  | .issueFairness _ => true
  | .clockGate _ => true
  | .powerGate _ => true
  | .residencyReport _ => true
  | .matrixPost _ => true
  | .matrixEntryComplete _ => true
  | .mtvPost _ => true
  | .mshapeApply _ => true
  | .msyncDone _ => true
  | .translationWalkDone _ => true
  | .walkerFailure _ => true
  | .xinvComplete _ => true
  | .launchHandoff _ => true
  | .launchAccept => true
  | .dependenceReached _ => true
  | .farmServe => true
  | .sliceSpillDone => true
  | .hartStart => true
  | .stripHandout _ => true
  | .retireLeave _ => true
  | .farmComplete _ => true
  | .farmFail _ _ => true
  | .starvationPromotion _ => true
  | .engineEnqueue _ => true
  | .copyChunkDelivery _ _ => true
  | .embeddingRecordDone _ _ => true
  | .probeDecision _ => true
  | .tileSettled _ _ => true
  | .fillEntry _ => true
  | .stctlDone _ => true
  | .collComplete _ => true
  | .collTimeout _ => true
  | .pmigCopyDone _ => true
  | .dramRatioChange _ => true
  | .crownLatencyTarget _ _ => true
  | .ualinkRequestIn _ => true
  | .ualinkResponse _ _ _ => true
  | .ualinkRequestTimeout _ => true
  | .ualinkLaneFailure _ _ => true
  | .spinelLinkFailed _ => true
  | .clusterLinkFailed _ _ _ => true
  | .berylPortDown => true
  | .berylPortUp => true
  | .mwrite _ _ _ _ => true
  | .mread _ _ _ => true
  | .launchMessage _ _ _ _ _ _ => true
  | .signal _ _ _ => true
  | .replay _ _ => true
  | .attest _ _ => true
  | .attestReply => true
  | .malformedMessage _ => true
  | .mgmtIdentify _ => true
  | .mgmtReset _ => true
  | .mgmtCsrWrite _ _ _ => true
  | .mgmtCsrRead _ _ => true
  | .mgmtExtend _ _ => true
  | .mgmtFirmwareWrite _ _ _ _ => true
  | .mgmtSetIdentity _ _ _ => true
  | .mgmtEndFarm _ _ => true
  | .powerGood => true
  | .berylTrained => true
  | .firmwareVerify => true
  | .trainingDone => true
  | .thermalTrip _ => true
  | .throttle _ _ => true
  | .fpctlWrite _ => true
  | .ffxWrite _ => true
  | .bsumWrite _ => true
  | .ptbaseWrite _ => true
  | .xinvPage _ => true
  | .xinvAll _ => true
  | .fbtailWrite _ => true
  | .fbbaseWrite _ => true
  | .fbsizeWrite _ => true
  | .spbaseWrite _ => true
  | .spsizeWrite _ => true
  | .bsaveWrite _ => true
  | .pwrcapWrite _ => true
  | .stabaseWrite _ => true
  | .stalimitWrite _ => true
  | .acdataRead _ => true
  | .stcdataRead _ => true
  | .wstatRead _ => true
  | .cerrRead _ => true
  | .fcstatRead _ => true
  | .brstatRead _ => true
  | .pwrstatRead _ => true
  | .registerWrite _ => true
  | .powerRemoved => true
  | .notAnInstruction => true
  | .instructionFetchFault => true
  | .spinelRequestIn _ => true
  | .crownToStackLinkFailed _ => true
  | .failedRead _ _ => true
  | .storePerformed _ _ => true

end Sys2Proof
end

