-- ==== Sys2Proof/Decode.lean ====
section
/-! DEFINITION. Decode.lean: from bits to an instruction or a named rejection (R41 to R60), and back.

Every 32-bit instruction has one layout (R47): a top bit, the fields [30:26], [25:21] and [20:16], the length code, the
major opcode and the low seven bits. The decoder takes a word apart into those six fields and reads each format from
them; the encoder fills them. A 64-bit matrix instruction has the layout of R50 and a compressed form those of R45. -/

namespace Sys2Proof

/-- Why bits are not an instruction. -/
inductive DecodeError where
  /-- Fewer bytes than the length code of the first parcel asks for (R41). -/
  | truncated
  /-- A major opcode that R52 reserves. -/
  | reservedMajor
  /-- A funct, kind or operation value that R53, R54 or R56 reserves. -/
  | reservedFunct
  /-- A nonzero bit in a field that must be zero, or a field value that is reserved (R43). -/
  | reservedField
  /-- A reserved compressed form (R46). -/
  | reservedCompressed
  /-- A reserved matrix opcode (R51). -/
  | reservedMatrix
  /-- A `vmovcb` or `vmovbc` with C = 1, which raises CONVOY and not ILLEGAL (R49). -/
  | chainedMove
  deriving DecidableEq, Repr

/-! ## The layout of a 32-bit instruction -/

/-- The 32-bit word with top bit `h`, fields `b`, `a`, `d`, major opcode and low seven bits (R47). -/
def word32 (h : BitVec 1) (b a d : BitVec 5) (maj : BitVec 6) (l : BitVec 7) : BitVec 32 :=
  h ++ b ++ a ++ d ++ 0b110#3 ++ maj ++ l

/-- W[31]. -/
def topOf (w : BitVec 32) : BitVec 1 := w.extractLsb' 31 1
/-- W[30:26]. -/
def bOf (w : BitVec 32) : BitVec 5 := w.extractLsb' 26 5
/-- W[25:21]. -/
def aOf (w : BitVec 32) : BitVec 5 := w.extractLsb' 21 5
/-- W[20:16]. -/
def dOf (w : BitVec 32) : BitVec 5 := w.extractLsb' 16 5
/-- W[15:13], the length code. -/
def lengthOf (w : BitVec 32) : BitVec 3 := w.extractLsb' 13 3
/-- W[12:7]. -/
def majorOf (w : BitVec 32) : BitVec 6 := w.extractLsb' 7 6
/-- W[6:0]. -/
def lowOf (w : BitVec 32) : BitVec 7 := w.extractLsb' 0 7

/-- funct3 or kind3, W[6:4]. -/
def f3Of (l : BitVec 7) : BitVec 3 := l.extractLsb' 4 3
/-- W[3:0]. -/
def lo4Of (l : BitVec 7) : BitVec 4 := l.extractLsb' 0 4
/-- The governing mask of a vector format, W[3:1]. -/
def gOf (l : BitVec 7) : BitVec 3 := l.extractLsb' 1 3
/-- The chain bit, W[0]. -/
def cOf (l : BitVec 7) : BitVec 1 := l.extractLsb' 0 1
/-- funct4, W[6:3]. -/
def f4Of (l : BitVec 7) : BitVec 4 := l.extractLsb' 3 4
/-- W[2:0]. -/
def lo3Of (l : BitVec 7) : BitVec 3 := l.extractLsb' 0 3
/-- funct2, W[6:5]. -/
def f2Of (l : BitVec 7) : BitVec 2 := l.extractLsb' 5 2
/-- W[4:0]. -/
def lo5Of (l : BitVec 7) : BitVec 5 := l.extractLsb' 0 5
/-- funct5 of FOP and rs3 of FMA, W[6:2]. -/
def f5Of (l : BitVec 7) : BitVec 5 := l.extractLsb' 2 5
/-- W[1:0]. -/
def lo2Of (l : BitVec 7) : BitVec 2 := l.extractLsb' 0 2

/-- The instruction, if the fields that must be zero are zero. -/
def needZero (z : Bool) (i : Instr) : Except DecodeError Instr :=
  if z then .ok i else .error .reservedField

/-- A table's answer applied, or the rejection of a reserved value. -/
def orReserved {α : Type} (o : Option α) (f : α → Except DecodeError Instr) : Except DecodeError Instr :=
  match o with
  | some x => f x
  | none => .error .reservedFunct

/-! ## The funct tables (R53, R54, R56) -/

/-- VIA by funct3 (R120). -/
def viaTable (n : Nat) : Option (BitVec 1 → BitVec 5 → BitVec 5 → BitVec 5 → BitVec 3 → BitVec 1 → Instr) :=
  match n with
  | 0 => some .vadd
  | 1 => some .vsub
  | 2 => some .vmul
  | 3 => some .vmulh
  | 4 => some .vmulhn
  | 5 => some .vmin
  | 6 => some .vminn
  | 7 => some .vmax
  | _ => none

/-- VIB by funct3 (R120). -/
def vibTable (n : Nat) : Option (BitVec 1 → BitVec 5 → BitVec 5 → BitVec 5 → BitVec 3 → BitVec 1 → Instr) :=
  match n with
  | 0 => some .vmaxn
  | 1 => some .vand
  | 2 => some .vor
  | 3 => some .vxor
  | 4 => some .vsll
  | 5 => some .vsrl
  | 6 => some .vsra
  | 7 => some .vandn
  | _ => none

/-- VIC by funct3 (R121). -/
def vicTable (n : Nat) : Option (BitVec 1 → BitVec 5 → BitVec 5 → BitVec 5 → BitVec 3 → BitVec 1 → Instr) :=
  match n with
  | 0 => some .vdiv
  | 1 => some .vdivn
  | 2 => some .vrem
  | 3 => some .vremn
  | 4 => some .vsadd
  | 5 => some .vsaddn
  | 6 => some .vssub
  | 7 => some .vssubn
  | _ => none

/-- VFA by funct3 (R122). -/
def vfaTable (n : Nat) : Option (BitVec 1 → BitVec 5 → BitVec 5 → BitVec 5 → BitVec 3 → BitVec 1 → Instr) :=
  match n with
  | 0 => some .vfadd
  | 1 => some .vfsub
  | 2 => some .vfmul
  | 3 => some .vfdiv
  | 4 => some .vfmin
  | 5 => some .vfmax
  | 6 => some .vfsgnj
  | 7 => some .vfsgnjn
  | _ => none

/-- VFB by funct3 (R123). -/
def vfbTable (n : Nat) : Option (BitVec 1 → BitVec 5 → BitVec 5 → BitVec 5 → BitVec 3 → BitVec 1 → Instr) :=
  match n with
  | 0 => some .vfma
  | 1 => some .vfms
  | 2 => some .vfnma
  | 3 => some .vfnms
  | 4 => some .vmacc
  | 5 => some .vmsac
  | 6 => some .vfscale
  | _ => none

/-- VX by funct3 (R126). -/
def vxTable (n : Nat) : Option (BitVec 1 → BitVec 5 → BitVec 5 → BitVec 5 → BitVec 3 → BitVec 1 → Instr) :=
  match n with
  | 0 => some .vaddX
  | 1 => some .vrsubX
  | 2 => some .vmulX
  | 3 => some .vsllX
  | 4 => some .vfaddX
  | 5 => some .vfrsubX
  | 6 => some .vfmulX
  | 7 => some .vfmaX
  | _ => none

/-- VUN with funct3 0 and a vector source, by funct5 (R124). -/
def vunTable (n : Nat) : Option (BitVec 1 → BitVec 5 → BitVec 5 → BitVec 3 → BitVec 1 → Instr) :=
  match n with
  | 0 => some .vabs
  | 1 => some .vneg
  | 2 => some .vnot
  | 3 => some .vclz
  | 4 => some .vpopc
  | _ => none

/-- VUN with funct3 1, by funct5 (R125). -/
def vunfTable (n : Nat) : Option (BitVec 1 → BitVec 5 → BitVec 5 → BitVec 3 → BitVec 1 → Instr) :=
  match n with
  | 0 => some .vfsqrt
  | 1 => some .vfabs
  | 2 => some .vfneg
  | 3 => some .vfclass
  | 4 => some .vfround
  | 5 => some .vfexpo
  | 6 => some .vfmant
  | _ => none

/-- VCMP by funct3 (R130). -/
def vcmpTable (n : Nat) : Option (BitVec 5 → BitVec 5 → BitVec 5 → BitVec 3 → BitVec 1 → Instr) :=
  match n with
  | 0 => some .vcmpEq
  | 1 => some .vcmpNe
  | 2 => some .vcmpLt
  | 3 => some .vcmpGe
  | 4 => some .vcmpLtn
  | 5 => some .vcmpGen
  | _ => none

/-- VFCMP by funct3 (R130). -/
def vfcmpTable (n : Nat) : Option (BitVec 5 → BitVec 5 → BitVec 5 → BitVec 3 → BitVec 1 → Instr) :=
  match n with
  | 0 => some .vfcmpEq
  | 1 => some .vfcmpNe
  | 2 => some .vfcmpLt
  | 3 => some .vfcmpLe
  | 4 => some .vfcmpGt
  | 5 => some .vfcmpGe
  | 6 => some .vfcmpUn
  | _ => none

/-- VPERM with three operands (R138). -/
def vpermTable3 (n : Nat) : Option (BitVec 1 → BitVec 5 → BitVec 5 → BitVec 5 → BitVec 3 → BitVec 1 → Instr) :=
  match n with
  | 0 => some .vslideup
  | 1 => some .vslidedn
  | 2 => some .vperm
  | _ => none

/-- VPERM with two operands (R138 to R141). -/
def vpermTable2 (n : Nat) : Option (BitVec 1 → BitVec 5 → BitVec 5 → BitVec 3 → BitVec 1 → Instr) :=
  match n with
  | 3 => some .vcompress
  | 4 => some .vexpand
  | 5 => some .vconf
  | 6 => some .vsprs
  | _ => none

/-- VRED by funct3 (R142). -/
def vredTable (n : Nat) : Option (BitVec 1 → BitVec 5 → BitVec 5 → BitVec 3 → BitVec 1 → Instr) :=
  match n with
  | 0 => some .vredsum
  | 1 => some .vredmin
  | 2 => some .vredminn
  | 3 => some .vredmax
  | 4 => some .vredmaxn
  | 5 => some .vfredsum
  | 6 => some .vfredmin
  | 7 => some .vfredmax
  | _ => none

/-- VSCAN by funct3 (R144). -/
def vscanTable (n : Nat) : Option (BitVec 1 → BitVec 5 → BitVec 5 → BitVec 3 → BitVec 1 → Instr) :=
  match n with
  | 0 => some .vscanAdd
  | 1 => some .vscanMax
  | 2 => some .vscanMin
  | 3 => some .vfscanAdd
  | 4 => some .vfscanMax
  | 5 => some .vfscanMin
  | _ => none

/-! ## Vector memory kinds (R49, R56) -/

/-- VLD by kind and P. -/
def vldTable (p : BitVec 1) (kind : Nat) : Option (BitVec 5 → BitVec 5 → BitVec 3 → BitVec 1 → Instr) :=
  match kind, p.toNat with
  | 0, _ => some (.vld p)
  | 1, 0 => some .vldAcq
  | 2, 1 => some .vldV
  | 3, 1 => some .vldL
  | 4, 0 => some .vldNt
  | _, _ => none

/-- VLDS by kind and P. -/
def vldsTable (p : BitVec 1) (kind : Nat) : Option (BitVec 5 → BitVec 5 → BitVec 5 → BitVec 3 → BitVec 1 → Instr) :=
  match kind, p.toNat with
  | 0, _ => some (.vlds p)
  | 1, 0 => some .vldsAcq
  | 2, 1 => some .vldsV
  | 3, 1 => some .vldsL
  | 4, 0 => some .vldsNt
  | _, _ => none

/-- VLDX by kind and P. -/
def vldxTable (p : BitVec 1) (kind : Nat) : Option (BitVec 5 → BitVec 5 → BitVec 5 → BitVec 3 → BitVec 1 → Instr) :=
  match kind, p.toNat with
  | 0, 0 => some .vldx
  | 1, 0 => some .vldxB
  | 2, 0 => some .vldxBd
  | 3, 1 => some .vldxV
  | 4, 1 => some .vldxL
  | 5, 1 => some .vldxVbd
  | 6, 1 => some .vldxLbd
  | _, _ => none

/-- VST by kind and P. -/
def vstTable (p : BitVec 1) (kind : Nat) : Option (BitVec 5 → BitVec 5 → BitVec 3 → BitVec 1 → Instr) :=
  match kind, p.toNat with
  | 0, _ => some (.vst p)
  | 2, 1 => some .vstV
  | 3, 1 => some .vstL
  | 4, 0 => some .vstNt
  | _, _ => none

/-- VSTS by kind and P. -/
def vstsTable (p : BitVec 1) (kind : Nat) : Option (BitVec 5 → BitVec 5 → BitVec 5 → BitVec 3 → BitVec 1 → Instr) :=
  match kind, p.toNat with
  | 0, _ => some (.vsts p)
  | 2, 1 => some .vstsV
  | 3, 1 => some .vstsL
  | 4, 0 => some .vstsNt
  | _, _ => none

/-- VSTX by kind and P. -/
def vstxTable (p : BitVec 1) (kind : Nat) : Option (BitVec 5 → BitVec 5 → BitVec 5 → BitVec 3 → BitVec 1 → Instr) :=
  match kind, p.toNat with
  | 0, 0 => some .vstx
  | 1, 0 => some .vstxB
  | 2, 0 => some .vstxBd
  | 3, 1 => some .vstxV
  | 4, 1 => some .vstxL
  | 5, 1 => some .vstxVbd
  | 6, 1 => some .vstxLbd
  | _, _ => none

/-! ## The vector majors (R52) -/

/-- A VV-shaped major with three register fields. -/
def decodeVv (t : Option (BitVec 1 → BitVec 5 → BitVec 5 → BitVec 5 → BitVec 3 → BitVec 1 → Instr))
    (h : BitVec 1) (b a d : BitVec 5) (l : BitVec 7) : Except DecodeError Instr :=
  orReserved t fun f => .ok (f h d a b (gOf l) (cOf l))

/-- A VV-shaped major whose [30:26] must be zero. -/
def decodeVv0 (t : Option (BitVec 1 → BitVec 5 → BitVec 5 → BitVec 3 → BitVec 1 → Instr))
    (h : BitVec 1) (b a d : BitVec 5) (l : BitVec 7) : Except DecodeError Instr :=
  orReserved t fun f => needZero (b = 0) (f h d a (gOf l) (cOf l))

/-- VUN (R54): funct3 0 and 1, funct5 in [30:26]. -/
def decodeVun (h : BitVec 1) (b a d : BitVec 5) (l : BitVec 7) : Except DecodeError Instr :=
  match (f3Of l).toNat with
  | 0 =>
    match vunTable b.toNat with
    | some f => .ok (f h d a (gOf l) (cOf l))
    | none =>
      match b.toNat with
      | 5 => needZero (a = 0) (.vid h d (gOf l) (cOf l))
      | 6 => .ok (.viota h d a (gOf l) (cOf l))
      | _ => .error .reservedFunct
  | 1 => orReserved (vunfTable b.toNat) fun f => .ok (f h d a (gOf l) (cOf l))
  | _ => .error .reservedFunct

/-- VCMP and VFCMP (R49, R130): P must be 0. -/
def decodeVcmp (t : Option (BitVec 5 → BitVec 5 → BitVec 5 → BitVec 3 → BitVec 1 → Instr))
    (h : BitVec 1) (b a d : BitVec 5) (l : BitVec 7) : Except DecodeError Instr :=
  orReserved t fun f => needZero (h = 0) (f d a b (gOf l) (cOf l))

/-- VPERM (R138 to R141). -/
def decodeVperm (h : BitVec 1) (b a d : BitVec 5) (l : BitVec 7) : Except DecodeError Instr :=
  match vpermTable3 (f3Of l).toNat with
  | some f => .ok (f h d a b (gOf l) (cOf l))
  | none => decodeVv0 (vpermTable2 (f3Of l).toNat) h b a d l

/-- VMOV (R145, R146): `vext` and `vins` are unmasked; the bank moves have P = 0, and C = 1 on one raises CONVOY. -/
def decodeVmov (h : BitVec 1) (b a d : BitVec 5) (l : BitVec 7) : Except DecodeError Instr :=
  match (f3Of l).toNat with
  | 0 => needZero (b = 0) (.vdup h d a (gOf l) (cOf l))
  | 1 => needZero (gOf l = 0) (.vext h d a b (cOf l))
  | 2 => needZero (gOf l = 0) (.vins h d a b (cOf l))
  | 3 => needZero (b = 0) (.vmv h d a (gOf l) (cOf l))
  | 4 => .ok (.vmerge h d a b (gOf l) (cOf l))
  | 5 => if h = 0 ∧ b = 0 ∧ cOf l = 1 then .error .chainedMove else needZero (h = 0 && b = 0) (.vmovcb d a (gOf l))
  | 6 => if h = 0 ∧ b = 0 ∧ cOf l = 1 then .error .chainedMove else needZero (h = 0 && b = 0) (.vmovbc d a (gOf l))
  | _ => .error .reservedFunct

/-- VSCAN (R144). -/
def decodeVscan (h : BitVec 1) (b a d : BitVec 5) (l : BitVec 7) : Except DecodeError Instr :=
  if (f3Of l).toNat = 6 then .ok (.vrec h d a b (gOf l) (cOf l))
  else decodeVv0 (vscanTable (f3Of l).toNat) h b a d l

/-- VLD and VST (R56): [30:26] must be zero. -/
def decodeVm2 (t : Option (BitVec 5 → BitVec 5 → BitVec 3 → BitVec 1 → Instr))
    (b a d : BitVec 5) (l : BitVec 7) : Except DecodeError Instr :=
  orReserved t fun f => needZero (b = 0) (f d a (gOf l) (cOf l))

/-- VLDS, VLDX, VSTS and VSTX (R56). -/
def decodeVm3 (t : Option (BitVec 5 → BitVec 5 → BitVec 5 → BitVec 3 → BitVec 1 → Instr))
    (b a d : BitVec 5) (l : BitVec 7) : Except DecodeError Instr :=
  orReserved t fun f => .ok (f d a b (gOf l) (cOf l))

/-- VWIN (R204): P must be 0. -/
def decodeVwin (h : BitVec 1) (b a d : BitVec 5) (l : BitVec 7) : Except DecodeError Instr :=
  if h ≠ 0 then .error .reservedField
  else
    match (f3Of l).toNat with
    | 0 => needZero (lo4Of l = 0) (.vwin d a b)
    | 1 => needZero (d = 0) (.vwred a b (gOf l) (cOf l))
    | 2 => needZero (b = 0 && a = 0 && d = 0 && lo4Of l = 0) .vwmerge
    | 3 => needZero (b = 0 && a = 0 && d = 0 && lo4Of l = 0) .vwdrop
    | _ => .error .reservedFunct


/-- The instruction, if its encoding breaks no rule that holds in every state. -/
def checkWf (r : Except DecodeError Instr) : Except DecodeError Instr :=
  match r with
  | .ok i => if i.wf then .ok i else .error .reservedField
  | .error e => .error e

/-- The majors of the VV, VM and VCVT formats, whose instructions form convoys (R44, R75). -/
def isVectorMajor (maj : BitVec 6) : Bool :=
  (decide (0x21 ≤ maj.toNat) && decide (maj.toNat ≤ 0x36) && decide (maj ≠ 0x2A#6) && decide (maj ≠ 0x2B#6)) ||
    decide (maj = 0x39#6)

/-- The instruction of the six fields of a word with a vector major. -/
def decodeVectorFields (h : BitVec 1) (b a d : BitVec 5) (maj : BitVec 6) (l : BitVec 7) : Except DecodeError Instr :=
  match maj.toNat with
  | 0x21 => decodeVv (viaTable (f3Of l).toNat) h b a d l
  | 0x22 => decodeVv (vibTable (f3Of l).toNat) h b a d l
  | 0x23 => decodeVv (vicTable (f3Of l).toNat) h b a d l
  | 0x24 => decodeVv (vfaTable (f3Of l).toNat) h b a d l
  | 0x25 => decodeVv (vfbTable (f3Of l).toNat) h b a d l
  | 0x26 => decodeVun h b a d l
  | 0x27 => decodeVv (vxTable (f3Of l).toNat) h b a d l
  | 0x28 => decodeVcmp (vcmpTable (f3Of l).toNat) h b a d l
  | 0x29 => decodeVcmp (vfcmpTable (f3Of l).toNat) h b a d l
  | 0x2C => decodeVperm h b a d l
  | 0x2D => decodeVv0 (vredTable (f3Of l).toNat) h b a d l
  | 0x2E => decodeVmov h b a d l
  | 0x2F => decodeVscan h b a d l
  | 0x30 => decodeVm2 (vldTable h (f3Of l).toNat) b a d l
  | 0x31 => decodeVm3 (vldsTable h (f3Of l).toNat) b a d l
  | 0x32 => decodeVm3 (vldxTable h (f3Of l).toNat) b a d l
  | 0x33 => decodeVm2 (vstTable h (f3Of l).toNat) b a d l
  | 0x34 => decodeVm3 (vstsTable h (f3Of l).toNat) b a d l
  | 0x35 => decodeVm3 (vstxTable h (f3Of l).toNat) b a d l
  | 0x36 => decodeVwin h b a d l
  | 0x39 => .ok (.vcvt h (b.extractLsb' 0 4) (b.extractLsb' 4 1 ++ f3Of l) d a (gOf l) (cOf l))
  | _ => .error .reservedMajor

/-- The member of a convoy that a word is. -/
def decodeMember (w : BitVec 32) : Except DecodeError Instr :=
  checkWf (decodeVectorFields (topOf w) (bOf w) (aOf w) (dOf w) (majorOf w) (lowOf w))

/-- The matrix word with these fields (R50). -/
def word64 (ovw sat neg : BitVec 1) (fb fa : BitVec 4) (xs vx vb va : BitVec 5) (op : BitVec 6) (t : BitVec 1) :
    BitVec 64 :=
  0#16 ++ ovw ++ sat ++ neg ++ fb ++ fa ++ xs ++ 0#1 ++ vx ++ vb ++ va ++ 0b111#3 ++ op ++ t ++ 0#6

/-- The instruction of the fields of a matrix word (R51): a field that an opcode does not use must be zero. -/
def decodeMatrixFields (ovw sat neg : BitVec 1) (fb fa : BitVec 4) (xs vx vb va : BitVec 5) (op : BitVec 6)
    (t : BitVec 1) : Except DecodeError Instr :=
  let noFmt := fa = 0 ∧ fb = 0 ∧ neg = 0 ∧ sat = 0 ∧ ovw = 0
  match op.toNat with
  | 0 => needZero (t = 0 ∧ va = 0 ∧ vb = 0 ∧ vx = 0 ∧ noFmt) (.mshape xs)
  | 1 => needZero (va = 0 ∧ vb = 0 ∧ vx = 0 ∧ xs = 0 ∧ noFmt) (.mzero t)
  | 2 => needZero (vx = 0 ∧ xs = 0) (.mma t va vb fa fb neg sat ovw)
  | 3 => needZero (xs = 0) (.mmas t va vb vx fa fb neg sat ovw)
  | 4 => needZero (vx = 0) (.mmag t va vb xs fa fb neg sat ovw)
  | 5 => needZero (xs = 0) (.mmax t va vb vx fa fb neg sat ovw)
  | 6 => needZero (vb = 0 ∧ vx = 0 ∧ noFmt) (.mtv va t xs)
  | 7 => needZero (vb = 0 ∧ vx = 0 ∧ noFmt) (.mvt t va xs)
  | 8 => needZero (t = 0 ∧ va = 0 ∧ vb = 0 ∧ vx = 0 ∧ xs = 0 ∧ noFmt) .msync
  | _ => .error .reservedMatrix

/-- The instruction of a 64-bit word whose length code is 0b111. -/
def decode64 (w : BitVec 64) : Except DecodeError Instr :=
  if w.extractLsb' 48 16 ≠ 0 ∨ w.extractLsb' 31 1 ≠ 0 ∨ w.extractLsb' 0 6 ≠ 0 then .error .reservedField
  else checkWf (decodeMatrixFields (w.extractLsb' 47 1) (w.extractLsb' 46 1) (w.extractLsb' 45 1)
    (w.extractLsb' 41 4) (w.extractLsb' 37 4) (w.extractLsb' 32 5) (w.extractLsb' 26 5) (w.extractLsb' 21 5)
    (w.extractLsb' 16 5) (w.extractLsb' 7 6) (w.extractLsb' 6 1))

/-- The little-endian value of a list of bytes, as a natural number. -/
def leNat : List Byte → Nat
  | [] => 0
  | b :: bs => b.toNat + 256 * leNat bs

/-- The `n` low bytes of a number, little-endian. -/
def toBytes (v : Nat) : Nat → List Byte
  | 0 => []
  | n + 1 => BitVec.ofNat 8 v :: toBytes (v / 256) n

/-- The length in bytes that the first parcel gives (R41). -/
def parcelLength (p : BitVec 16) : Nat :=
  match (p.extractLsb' 13 3).toNat with
  | 6 => 4
  | 7 => 8
  | _ => 2

/-! ## Which scalar encodings are instructions

A convoy whose chain ends in a scalar instruction raises CONVOY, and one whose chain ends in bits that are not an
instruction raises ILLEGAL (R44): these tests answer that question without building the instruction. -/

/-- The fields of a 32-bit word with a scalar major are an instruction (R43, R52 to R60). -/
def scalarFieldsOk (h : BitVec 1) (b a d : BitVec 5) (maj : BitVec 6) (l : BitVec 7) : Bool :=
  let f3 := (f3Of l).toNat
  let f4 := (f4Of l).toNat
  let f5 := (f5Of l).toNat
  let sc := h ++ lo3Of l
  match maj.toNat with
  | 0x00 =>
    let n := (h ++ l).toNat
    n ≤ 0x0E || (0x10 ≤ n && n ≤ 0x12) || (0x14 ≤ n && n ≤ 0x17) || (0x20 ≤ n && n ≤ 0x29) ||
      (0x18 ≤ n && n ≤ 0x1E && b = 0)
  | 0x01 => true
  | 0x02 => f3 ≤ 4 || (h = 0 && b.extractLsb' 2 3 = 0)
  | 0x03 => true
  | 0x04 => true
  | 0x05 => f3 ≤ 6
  | 0x06 => f3 ≤ 3
  | 0x07 => f4 ≤ 3 && b = 0 && scopeOk sc
  | 0x08 => true
  | 0x09 => true
  | 0x0A => true
  | 0x0B => true
  | 0x0C => d.extractLsb' 1 4 = 0 && 3 ≤ (h ++ b ++ l).toNat
  | 0x0D => scopeOk (lo4Of l)
  | 0x0E => scopeOk (lo4Of l)
  | 0x0F =>
    if f3 = 4 then h = 0 && b = 0 && a = 0 && d = 0
    else f3 ≤ 5 && b.extractLsb' 0 2 = 0 && a = 0 && d = 0 && lo4Of l = 0 && scopeOk (h ++ b.extractLsb' 2 3) &&
      (f3 ≠ 5 || (h ++ b.extractLsb' 2 3 ≠ 5 && h ++ b.extractLsb' 2 3 ≠ 6))
  | 0x10 => f3 ≤ 4 && h = 0 && b = 0 && a = 0 && d = 0 && lo4Of l = 0
  | 0x11 => (f2Of l).toNat ≠ 0 || a = 0
  | 0x12 => h = 0 && f5 ≤ 16 && (f5 ≠ 4 || b = 0) && (f5 ≠ 13 || b = 0) && (f5 ≠ 14 || b.extractLsb' 1 4 = 0) &&
      (f5 ≠ 15 || b.extractLsb' 1 4 = 0) && (f5 ≠ 16 || b.extractLsb' 2 3 = 0)
  | 0x13 => true
  | 0x20 => h = 0 && b = 0 && a = 0 && l.extractLsb' 6 1 = 0 &&
      vcfgOk (lo2Of l) (l.extractLsb' 2 3) (l.extractLsb' 5 1)
  | 0x2A => f4 ≤ 3 && h = 0 && lo3Of l = 0 && maskOk d
  | 0x2B => h = 0 &&
      (if f4 ≤ 3 then maskOk d && maskOk a && maskOk b
       else if f4 ≤ 6 || f4 = 13 then b = 0 && maskOk d && maskOk a
       else if f4 ≤ 8 then b = 0 && a = 0 && maskOk d
       else if f4 ≤ 10 then a = 0 && lo3Of l = 0 && maskOk d
       else f4 ≤ 12 && b = 0 && maskOk a)
  | 0x37 =>
    match f4 with
    | 5 => sc ≠ 0
    | 6 => h = 0
    | 7 => sc = 0 && b = 0
    | 10 => sc = 0 && b = 0
    | n => n ≤ 10 && sc = 0
  | 0x38 => b = 0 &&
    (match f4 with
    | 1 => scopeOk sc
    | 2 => scopeOk sc
    | 3 => scopeOk sc
    | 0 => sc = 0
    | 4 => sc = 0
    | 5 => sc = 0
    | 7 => sc = 0
    | 8 => sc = 0 && a = 0
    | n => n ≤ 10 && sc = 0 && a = 0 && d = 0)
  | _ => false

/-- A compressed parcel is an instruction (R46). -/
def parcelOk (p : BitVec 16) : Bool :=
  let f3 := (p.extractLsb' 10 3).toNat
  match (p.extractLsb' 13 3).toNat with
  | 0 => if f3 = 0 then p.extractLsb' 0 7 ≠ 0 else f3 ≤ 2 || (f3 ≤ 5 && p.extractLsb' 6 1 = 0)
  | 1 => f3 ≤ 5 && p.extractLsb' 0 4 = 0
  | 2 => (p.extractLsb' 11 2).toNat ≤ 1 || p.extractLsb' 6 2 = 0
  | 3 => true
  | 4 => true
  | 5 => if f3 ≤ 1 then p.extractLsb' 5 5 ≠ 0 && p.extractLsb' 0 5 = 0 else f3 ≤ 4 && p.extractLsb' 0 10 = 0
  | _ => false

/-! ## The scalar majors -/

noncomputable section


/-- Two-source OP instructions by funct8 (R93 to R95). -/
def opTable (n : Nat) : Option (BitVec 5 → BitVec 5 → BitVec 5 → Instr) :=
  match n with
  | 0x00 => some .add
  | 0x01 => some .sub
  | 0x02 => some .and
  | 0x03 => some .or
  | 0x04 => some .xor
  | 0x05 => some .andn
  | 0x06 => some .sll
  | 0x07 => some .srl
  | 0x08 => some .sra
  | 0x09 => some .slt
  | 0x0A => some .sltn
  | 0x0B => some .min
  | 0x0C => some .minn
  | 0x0D => some .max
  | 0x0E => some .maxn
  | 0x10 => some .mul
  | 0x11 => some .mulh
  | 0x12 => some .mulhn
  | 0x14 => some .div
  | 0x15 => some .divn
  | 0x16 => some .rem
  | 0x17 => some .remn
  | 0x20 => some .addw
  | 0x21 => some .subw
  | 0x22 => some .sllw
  | 0x23 => some .srlw
  | 0x24 => some .sraw
  | 0x25 => some .mulw
  | 0x26 => some .divw
  | 0x27 => some .divnw
  | 0x28 => some .remw
  | 0x29 => some .remnw
  | _ => none

/-- One-source OP instructions by funct8 (R93). -/
def opUnaryTable (n : Nat) : Option (BitVec 5 → BitVec 5 → Instr) :=
  match n with
  | 0x18 => some .clz
  | 0x19 => some .ctz
  | 0x1A => some .popc
  | 0x1B => some .sextB
  | 0x1C => some .sextH
  | 0x1D => some .sextW
  | 0x1E => some .zextW
  | _ => none

/-- OPI instructions with a signed immediate (R96). -/
def opiTable (n : Nat) : Option (BitVec 5 → BitVec 5 → BitVec 10 → Instr) :=
  match n with
  | 0 => some .andi
  | 1 => some .ori
  | 2 => some .xori
  | 3 => some .slti
  | 4 => some .sltni
  | _ => none

/-- OPI shifts (R96). -/
def opiShiftTable (n : Nat) : Option (BitVec 5 → BitVec 5 → BitVec 6 → Instr) :=
  match n with
  | 5 => some .slli
  | 6 => some .srli
  | 7 => some .srai
  | _ => none

/-- Loads (R98). -/
def ldTable (n : Nat) : Option (BitVec 5 → BitVec 5 → BitVec 10 → Instr) :=
  match n with
  | 0 => some .ldB
  | 1 => some .ldBn
  | 2 => some .ldH
  | 3 => some .ldHn
  | 4 => some .ldW
  | 5 => some .ldWn
  | 6 => some .ldD
  | _ => none

/-- Stores (R98). -/
def stTable (n : Nat) : Option (BitVec 5 → BitVec 5 → BitVec 10 → Instr) :=
  match n with
  | 0 => some .stB
  | 1 => some .stH
  | 2 => some .stW
  | 3 => some .stD
  | _ => none

/-- ORD instructions (R164). -/
def ordTable (n : Nat) : Option (BitVec 5 → BitVec 5 → BitVec 4 → Instr) :=
  match n with
  | 0 => some .ldAcqW
  | 1 => some .ldAcqD
  | 2 => some .stRelW
  | 3 => some .stRelD
  | _ => none

/-- BRA branches (R101). -/
def braTable (n : Nat) : Option (BitVec 5 → BitVec 5 → BitVec 11 → Instr) :=
  match n with
  | 0 => some .beq
  | 1 => some .bne
  | 2 => some .blt
  | 3 => some .bge
  | _ => none

/-- BRB branches (R101). -/
def brbTable (n : Nat) : Option (BitVec 5 → BitVec 5 → BitVec 11 → Instr) :=
  match n with
  | 0 => some .bltn
  | 1 => some .bgen
  | 2 => some .bbs
  | 3 => some .bbc
  | _ => none

/-- Relaxed atomics (R107). -/
def amoTable (n : Nat) : Option (BitVec 1 → BitVec 5 → BitVec 5 → BitVec 5 → BitVec 4 → Instr) :=
  match n with
  | 0 => some .amoadd
  | 1 => some .amoand
  | 2 => some .amoor
  | 3 => some .amoxor
  | 4 => some .amomin
  | 5 => some .amomax
  | 6 => some .amoswap
  | 7 => some .amocas
  | _ => none

/-- Acquire-release atomics (R165). -/
def amoxTable (n : Nat) : Option (BitVec 1 → BitVec 5 → BitVec 5 → BitVec 5 → BitVec 4 → Instr) :=
  match n with
  | 0 => some .amoaddAcqrel
  | 1 => some .amoandAcqrel
  | 2 => some .amoorAcqrel
  | 3 => some .amoxorAcqrel
  | 4 => some .amominAcqrel
  | 5 => some .amomaxAcqrel
  | 6 => some .amoswapAcqrel
  | 7 => some .amocasAcqrel
  | _ => none

/-- Fences with a scope (R166, R168). -/
def fenceTable (n : Nat) : Option (BitVec 4 → Instr) :=
  match n with
  | 0 => some .fenceSv
  | 1 => some .fenceVs
  | 2 => some .fenceVv
  | 3 => some .fenceAll
  | 5 => some .icsync
  | _ => none

/-- SYS instructions (R114 to R116). -/
def sysTable (n : Nat) : Option (Instr) :=
  match n with
  | 0 => some .ecall
  | 1 => some .ebreak
  | 2 => some .eret
  | 3 => some .uret
  | 4 => some .pause
  | _ => none

/-- Two-source FOP instructions by funct5 (R109). -/
def fopTable (n : Nat) : Option (BitVec 2 → BitVec 5 → BitVec 5 → BitVec 5 → Instr) :=
  match n with
  | 0 => some .fadd
  | 1 => some .fsub
  | 2 => some .fmul
  | 3 => some .fdiv
  | 5 => some .fmin
  | 6 => some .fmax
  | 7 => some .fsgnj
  | 8 => some .fsgnjn
  | 9 => some .fsgnjx
  | 10 => some .feq
  | 11 => some .flt
  | 12 => some .fle
  | _ => none

/-- FMA instructions by op (R110). -/
def fmaTable (n : Nat) : Option (BitVec 1 → BitVec 5 → BitVec 5 → BitVec 5 → BitVec 5 → Instr) :=
  match n with
  | 0 => some .fma
  | 1 => some .fms
  | 2 => some .fnma
  | 3 => some .fnms
  | _ => none

/-- VWHILE by funct4 (R131). -/
def whileTable (n : Nat) : Option (BitVec 5 → BitVec 5 → BitVec 5 → Instr) :=
  match n with
  | 0 => some .whileLt
  | 1 => some .whileLe
  | 2 => some .whileLtn
  | 3 => some .whileLen
  | _ => none

/-- MASK with two mask sources (R132). -/
def maskTable3 (n : Nat) : Option (BitVec 5 → BitVec 5 → BitVec 5 → BitVec 3 → Instr) :=
  match n with
  | 0 => some .mand
  | 1 => some .mor
  | 2 => some .mxor
  | 3 => some .mandn
  | _ => none

/-- MASK with one mask source (R132). -/
def maskTable2 (n : Nat) : Option (BitVec 5 → BitVec 5 → BitVec 3 → Instr) :=
  match n with
  | 4 => some .mnot
  | 5 => some .mmov
  | 6 => some .mff
  | 11 => some .mpop
  | 12 => some .mfirst
  | 13 => some .mbrk
  | _ => none

/-- OP (R93 to R95). -/
def decodeOp (h : BitVec 1) (b a d : BitVec 5) (l : BitVec 7) : Except DecodeError Instr :=
  match opTable (h ++ l).toNat with
  | some f => .ok (f d a b)
  | none => orReserved (opUnaryTable (h ++ l).toNat) fun f => needZero (b = 0) (f d a)

/-- OPI (R96): in the shifts imm10[9:6] must be zero. -/
def decodeOpi (h : BitVec 1) (b a d : BitVec 5) (l : BitVec 7) : Except DecodeError Instr :=
  match opiTable (f3Of l).toNat with
  | some f => .ok (f d a (h ++ b ++ lo4Of l))
  | none => orReserved (opiShiftTable (f3Of l).toNat) fun f =>
      needZero (h = 0 && b.extractLsb' 2 3 = 0) (f d a (b.extractLsb' 0 2 ++ lo4Of l))

/-- ORD (R164). -/
def decodeOrd (h : BitVec 1) (b a d : BitVec 5) (l : BitVec 7) : Except DecodeError Instr :=
  orReserved (ordTable (f4Of l).toNat) fun f => needZero (b = 0) (f d a (h ++ lo3Of l))

/-- FENCE (R59, R166): imm10 is [31:26] with [3:0]. -/
def decodeFence (h : BitVec 1) (b a d : BitVec 5) (l : BitVec 7) : Except DecodeError Instr :=
  if (f3Of l).toNat = 4 then needZero (h = 0 && b = 0 && a = 0 && d = 0) (.fenceStk (lo4Of l))
  else orReserved (fenceTable (f3Of l).toNat) fun f =>
    needZero (b.extractLsb' 0 2 = 0 && a = 0 && d = 0 && lo4Of l = 0) (f (h ++ b.extractLsb' 2 3))

/-- SYS (R59, R114 to R116). -/
def decodeSys (h : BitVec 1) (b a d : BitVec 5) (l : BitVec 7) : Except DecodeError Instr :=
  orReserved (sysTable (f3Of l).toNat) fun i => needZero (h = 0 && b = 0 && a = 0 && d = 0 && lo4Of l = 0) i

/-- CSR (R111). -/
def decodeCsr (h : BitVec 1) (b a d : BitVec 5) (l : BitVec 7) : Except DecodeError Instr :=
  match (f2Of l).toNat with
  | 0 => needZero (a = 0) (.csrr d (h ++ b ++ lo5Of l))
  | 1 => .ok (.csrw d (h ++ b ++ lo5Of l) a)
  | 2 => .ok (.csrs d (h ++ b ++ lo5Of l) a)
  | _ => .ok (.csrc d (h ++ b ++ lo5Of l) a)

/-- FOP (R54, R109). -/
def decodeFop (h : BitVec 1) (b a d : BitVec 5) (l : BitVec 7) : Except DecodeError Instr :=
  if h ≠ 0 then .error .reservedFunct
  else
    match fopTable (f5Of l).toNat with
    | some f => .ok (f (lo2Of l) d a b)
    | none =>
      match (f5Of l).toNat with
      | 4 => needZero (b = 0) (.fsqrt (lo2Of l) d a)
      | 13 => needZero (b = 0) (.fclass (lo2Of l) d a)
      | 14 => needZero (b.extractLsb' 1 4 = 0) (.fcvtI (lo2Of l) (b.extractLsb' 0 1) d a)
      | 15 => needZero (b.extractLsb' 1 4 = 0) (.fcvtF (lo2Of l) (b.extractLsb' 0 1) d a)
      | 16 => needZero (b.extractLsb' 2 3 = 0) (.fcvtFf (lo2Of l) (b.extractLsb' 0 2) d a)
      | _ => .error .reservedFunct

/-- VWHILE (R131). -/
def decodeWhile (h : BitVec 1) (b a d : BitVec 5) (l : BitVec 7) : Except DecodeError Instr :=
  orReserved (whileTable (f4Of l).toNat) fun f => needZero (h = 0 && lo3Of l = 0) (f d a b)

/-- MASK (R132). -/
def decodeMask (h : BitVec 1) (b a d : BitVec 5) (l : BitVec 7) : Except DecodeError Instr :=
  if h ≠ 0 then .error .reservedField
  else
    match maskTable3 (f4Of l).toNat with
    | some f => .ok (f d a b (lo3Of l))
    | none =>
      match maskTable2 (f4Of l).toNat with
      | some f => needZero (b = 0) (f d a (lo3Of l))
      | none =>
        match (f4Of l).toNat with
        | 7 => needZero (b = 0 && a = 0) (.mset d (lo3Of l))
        | 8 => needZero (b = 0 && a = 0) (.mclr d (lo3Of l))
        | 9 => needZero (a = 0 && lo3Of l = 0) (.mbset d b)
        | 10 => needZero (a = 0 && lo3Of l = 0) (.mbclr d b)
        | _ => .error .reservedFunct

/-- ASYNC (R60): scope4 is [31] with [2:0]. The operations of `stctl` and of `coll` share one word each; the register
operand chooses (assumption log 9). -/
def decodeAsync (h : BitVec 1) (b a d : BitVec 5) (l : BitVec 7) : Except DecodeError Instr :=
  let sc := h ++ lo3Of l
  match (f4Of l).toNat with
  | 0 => needZero (sc = 0) (.copyL d a b)
  | 1 => needZero (sc = 0) (.copy2d d a b)
  | 2 => needZero (sc = 0) (.copyG d a b)
  | 3 => needZero (sc = 0) (.copyS d a b)
  | 4 => needZero (sc = 0) (.embw d a b)
  | 5 => .ok (.stprobe sc d a b)
  | 6 => needZero (h = 0) (.stfill d a b (lo3Of l))
  | 7 => needZero (sc = 0 && b = 0) (.stctlStream d a)
  | 8 => needZero (sc = 0) (.cname d a b)
  | 9 => needZero (sc = 0) (.collAllReduce d a b)
  | 10 => needZero (sc = 0 && b = 0) (.pmig d a)
  | _ => .error .reservedFunct

/-- SYNC (R60, R195, R245, R281, R288, R289, R291, R326). -/
def decodeSync (h : BitVec 1) (b a d : BitVec 5) (l : BitVec 7) : Except DecodeError Instr :=
  let sc := h ++ lo3Of l
  if b ≠ 0 then .error .reservedField
  else
    match (f4Of l).toNat with
    | 0 => needZero (sc = 0) (.awarm d a)
    | 1 => .ok (.awadd d a sc)
    | 2 => .ok (.waitGen d a sc)
    | 3 => .ok (.waitNe d a sc)
    | 4 => needZero (sc = 0) (.carrive d a)
    | 5 => needZero (sc = 0) (.cwait d a)
    | 6 => needZero (sc = 0 && a = 0 && d = 0) .gbar
    | 7 => needZero (sc = 0) (.launch d a)
    | 8 => needZero (sc = 0 && a = 0) (.farmnext d)
    | 9 => needZero (sc = 0 && a = 0 && d = 0) .retire
    | 10 => needZero (sc = 0 && a = 0 && d = 0) .bsync
    | _ => .error .reservedFunct

/-- The instruction of the six fields of a 32-bit word (R52). -/
def decodeFields (h : BitVec 1) (b a d : BitVec 5) (maj : BitVec 6) (l : BitVec 7) : Except DecodeError Instr :=
  match maj.toNat with
  | 0x00 => decodeOp h b a d l
  | 0x01 => .ok (.addi d a (h ++ b ++ l))
  | 0x02 => decodeOpi h b a d l
  | 0x03 => .ok (.lhi d (h ++ b ++ a ++ l))
  | 0x04 => .ok (.pcadd d (h ++ b ++ a ++ l))
  | 0x05 => orReserved (ldTable (f3Of l).toNat) fun f => .ok (f d a (h ++ b ++ lo4Of l))
  | 0x06 => orReserved (stTable (f3Of l).toNat) fun f => .ok (f d a (h ++ b ++ lo4Of l))
  | 0x07 => decodeOrd h b a d l
  | 0x08 => orReserved (braTable (f2Of l).toNat) fun f => .ok (f d a (h ++ b ++ lo5Of l))
  | 0x09 => orReserved (brbTable (f2Of l).toNat) fun f => .ok (f d a (h ++ b ++ lo5Of l))
  | 0x0A => .ok (.jal d (h ++ b ++ a ++ l))
  | 0x0B => .ok (.jalr d a (h ++ b ++ l))
  | 0x0C => needZero (d.extractLsb' 1 4 = 0) (.loop (d.extractLsb' 0 1) a (h ++ b ++ l))
  | 0x0D => orReserved (amoTable (f3Of l).toNat) fun f => .ok (f h d b a (lo4Of l))
  | 0x0E => orReserved (amoxTable (f3Of l).toNat) fun f => .ok (f h d b a (lo4Of l))
  | 0x0F => decodeFence h b a d l
  | 0x10 => decodeSys h b a d l
  | 0x11 => decodeCsr h b a d l
  | 0x12 => decodeFop h b a d l
  | 0x13 => orReserved (fmaTable (lo2Of l).toNat) fun f => .ok (f h d a b (f5Of l))
  | 0x20 => needZero (h = 0 && b = 0 && a = 0 && l.extractLsb' 6 1 = 0)
      (.vcfg d (lo2Of l) (l.extractLsb' 2 3) (l.extractLsb' 5 1))
  | 0x2A => decodeWhile h b a d l
  | 0x2B => decodeMask h b a d l
  | 0x37 => decodeAsync h b a d l
  | 0x38 => decodeSync h b a d l
  | _ => decodeVectorFields h b a d maj l

/-- The instruction of a 32-bit word whose length code is 0b110. -/
def decode32 (w : BitVec 32) : Except DecodeError Instr :=
  checkWf (decodeFields (topOf w) (bOf w) (aOf w) (dOf w) (majorOf w) (lowOf w))

/-! ## Compressed forms (R45, R46) -/

/-- The instruction of a 16-bit parcel whose length code is 0b000 to 0b101. -/
def decodeParcel (p : BitVec 16) : Except DecodeError Instr :=
  let rd := p.extractLsb' 7 3
  let imm7 := p.extractLsb' 0 7
  let f3 := (p.extractLsb' 10 3).toNat
  match (p.extractLsb' 13 3).toNat with
  | 0 =>
    match f3 with
    | 0 => .ok (.cAddi rd imm7)
    | 1 => .ok (.cLi rd imm7)
    | 2 => .ok (.cLhi rd imm7)
    | 3 => needZero (imm7.extractLsb' 6 1 = 0) (.cSlli rd (imm7.extractLsb' 0 6))
    | 4 => needZero (imm7.extractLsb' 6 1 = 0) (.cSrli rd (imm7.extractLsb' 0 6))
    | 5 => needZero (imm7.extractLsb' 6 1 = 0) (.cSrai rd (imm7.extractLsb' 0 6))
    | _ => .error .reservedCompressed
  | 1 =>
    let rs := p.extractLsb' 4 3
    let z := p.extractLsb' 0 4 = 0
    match f3 with
    | 0 => needZero z (.cAdd rd rs)
    | 1 => needZero z (.cSub rd rs)
    | 2 => needZero z (.cMv rd rs)
    | 3 => needZero z (.cAnd rd rs)
    | 4 => needZero z (.cOr rd rs)
    | 5 => needZero z (.cXor rd rs)
    | _ => .error .reservedCompressed
  | 2 =>
    match (p.extractLsb' 11 2).toNat with
    | 0 => .ok (.cLdW (p.extractLsb' 8 3) (p.extractLsb' 5 3) (p.extractLsb' 0 5))
    | 1 => .ok (.cStW (p.extractLsb' 8 3) (p.extractLsb' 5 3) (p.extractLsb' 0 5))
    | 2 => needZero (p.extractLsb' 6 2 = 0) (.cLdD (p.extractLsb' 8 3) (p.extractLsb' 0 6))
    | _ => needZero (p.extractLsb' 6 2 = 0) (.cStD (p.extractLsb' 8 3) (p.extractLsb' 0 6))
  | 3 => .ok (.cJ (p.extractLsb' 0 13))
  | 4 =>
    if p.extractLsb' 12 1 = 0 then .ok (.cBeqz (p.extractLsb' 9 3) (p.extractLsb' 0 9))
    else .ok (.cBnez (p.extractLsb' 9 3) (p.extractLsb' 0 9))
  | 5 =>
    match f3 with
    | 0 => needZero (p.extractLsb' 0 5 = 0) (.cJr (p.extractLsb' 5 5))
    | 1 => needZero (p.extractLsb' 0 5 = 0) (.cJalr (p.extractLsb' 5 5))
    | 2 => needZero (p.extractLsb' 0 10 = 0) .cRet
    | 3 => needZero (p.extractLsb' 0 10 = 0) .cNop
    | 4 => needZero (p.extractLsb' 0 10 = 0) .cEbreak
    | _ => .error .reservedCompressed
  | _ => .error .reservedCompressed

/-- The compressed form of a parcel, checked. -/
def decode16 (p : BitVec 16) : Except DecodeError Instr := checkWf (decodeParcel p)



/-- The instruction that bytes begin with, and the bytes after it (R41). -/
def decode (bytes : List Byte) : Except DecodeError (Instr × List Byte) :=
  if bytes.length < 2 then .error .truncated
  else
    let p := BitVec.ofNat 16 (leNat (bytes.take 2))
    let n := parcelLength p
    if bytes.length < n then .error .truncated
    else
      let w := leNat (bytes.take n)
      let r := match n with
        | 2 => decode16 p
        | 4 => decode32 (BitVec.ofNat 32 w)
        | _ => decode64 (BitVec.ofNat 64 w)
      match r with
      | .ok i => .ok (i, bytes.drop n)
      | .error e => .error e

/-- The instruction of a row of the opcode table: the word's bits above `nbits` are zero, up to the longest
instruction. -/
def decodeTableWord (nbits w : Nat) : Option Instr :=
  match decode (toBytes (w % 2 ^ nbits) 8) with
  | .ok (i, _) => some i
  | .error _ => none

end

/-! ## The encoder (R45 to R60) -/

/-- The bits of an instruction: their number and their value. -/
structure Encoding where
  bits : Nat
  word : Nat
  deriving DecidableEq, Repr

/-- A 32-bit encoding from the six fields. -/
def enc32 (h : BitVec 1) (b a d : BitVec 5) (maj : BitVec 6) (l : BitVec 7) : Encoding :=
  ⟨32, (word32 h b a d maj l).toNat⟩

/-- A vector encoding: funct3 or kind3, then g and C in the low bits. -/
def encV (p : BitVec 1) (b a d : BitVec 5) (maj : BitVec 6) (f3 : BitVec 3) (g : BitVec 3) (c : BitVec 1) : Encoding :=
  enc32 p b a d maj (f3 ++ g ++ c)

/-- The immediate formats that split an immediate over [31], [30:26] and the low bits. -/
def encI13 (imm : BitVec 13) (a d : BitVec 5) (maj : BitVec 6) : Encoding :=
  enc32 (imm.extractLsb' 12 1) (imm.extractLsb' 7 5) a d maj (imm.extractLsb' 0 7)

/-- XF and XS: a ten-bit immediate under a funct3. -/
def encI10 (imm : BitVec 10) (a d : BitVec 5) (maj : BitVec 6) (f3 : BitVec 3) : Encoding :=
  enc32 (imm.extractLsb' 9 1) (imm.extractLsb' 4 5) a d maj (f3 ++ imm.extractLsb' 0 4)

/-- XU: an eighteen-bit immediate. -/
def encI18 (imm : BitVec 18) (d : BitVec 5) (maj : BitVec 6) : Encoding :=
  enc32 (imm.extractLsb' 17 1) (imm.extractLsb' 12 5) (imm.extractLsb' 7 5) d maj (imm.extractLsb' 0 7)

/-- XB and CS: an eleven-bit field under a funct2. -/
def encI11 (imm : BitVec 11) (a d : BitVec 5) (maj : BitVec 6) (f2 : BitVec 2) : Encoding :=
  enc32 (imm.extractLsb' 10 1) (imm.extractLsb' 5 5) a d maj (f2 ++ imm.extractLsb' 0 5)

/-- AS: a funct4, and a scope code split over [31] and [2:0]. -/
def encAs (sc : BitVec 4) (b a d : BitVec 5) (maj : BitVec 6) (f4 : BitVec 4) : Encoding :=
  enc32 (sc.extractLsb' 3 1) b a d maj (f4 ++ sc.extractLsb' 0 3)

/-- A 16-bit encoding. -/
def enc16 (p : BitVec 16) : Encoding := ⟨16, p.toNat⟩

/-- A 64-bit encoding. -/
def enc64 (w : BitVec 64) : Encoding := ⟨64, w.toNat⟩

/-- The encoding of an instruction; `none` for an event. -/
def encode (i : Instr) : Option Encoding :=
  match i with
  | .add d a b => some (enc32 0#1 b a d 0x00#6 0#7)
  | .sub d a b => some (enc32 0#1 b a d 0x00#6 1#7)
  | .and d a b => some (enc32 0#1 b a d 0x00#6 2#7)
  | .or d a b => some (enc32 0#1 b a d 0x00#6 3#7)
  | .xor d a b => some (enc32 0#1 b a d 0x00#6 4#7)
  | .andn d a b => some (enc32 0#1 b a d 0x00#6 5#7)
  | .sll d a b => some (enc32 0#1 b a d 0x00#6 6#7)
  | .srl d a b => some (enc32 0#1 b a d 0x00#6 7#7)
  | .sra d a b => some (enc32 0#1 b a d 0x00#6 8#7)
  | .slt d a b => some (enc32 0#1 b a d 0x00#6 9#7)
  | .sltn d a b => some (enc32 0#1 b a d 0x00#6 10#7)
  | .min d a b => some (enc32 0#1 b a d 0x00#6 11#7)
  | .minn d a b => some (enc32 0#1 b a d 0x00#6 12#7)
  | .max d a b => some (enc32 0#1 b a d 0x00#6 13#7)
  | .maxn d a b => some (enc32 0#1 b a d 0x00#6 14#7)
  | .mul d a b => some (enc32 0#1 b a d 0x00#6 16#7)
  | .mulh d a b => some (enc32 0#1 b a d 0x00#6 17#7)
  | .mulhn d a b => some (enc32 0#1 b a d 0x00#6 18#7)
  | .div d a b => some (enc32 0#1 b a d 0x00#6 20#7)
  | .divn d a b => some (enc32 0#1 b a d 0x00#6 21#7)
  | .rem d a b => some (enc32 0#1 b a d 0x00#6 22#7)
  | .remn d a b => some (enc32 0#1 b a d 0x00#6 23#7)
  | .clz d a => some (enc32 0#1 0#5 a d 0x00#6 24#7)
  | .ctz d a => some (enc32 0#1 0#5 a d 0x00#6 25#7)
  | .popc d a => some (enc32 0#1 0#5 a d 0x00#6 26#7)
  | .sextB d a => some (enc32 0#1 0#5 a d 0x00#6 27#7)
  | .sextH d a => some (enc32 0#1 0#5 a d 0x00#6 28#7)
  | .sextW d a => some (enc32 0#1 0#5 a d 0x00#6 29#7)
  | .zextW d a => some (enc32 0#1 0#5 a d 0x00#6 30#7)
  | .addw d a b => some (enc32 0#1 b a d 0x00#6 32#7)
  | .subw d a b => some (enc32 0#1 b a d 0x00#6 33#7)
  | .sllw d a b => some (enc32 0#1 b a d 0x00#6 34#7)
  | .srlw d a b => some (enc32 0#1 b a d 0x00#6 35#7)
  | .sraw d a b => some (enc32 0#1 b a d 0x00#6 36#7)
  | .mulw d a b => some (enc32 0#1 b a d 0x00#6 37#7)
  | .divw d a b => some (enc32 0#1 b a d 0x00#6 38#7)
  | .divnw d a b => some (enc32 0#1 b a d 0x00#6 39#7)
  | .remw d a b => some (enc32 0#1 b a d 0x00#6 40#7)
  | .remnw d a b => some (enc32 0#1 b a d 0x00#6 41#7)
  | .addi d a imm => some (encI13 imm a d 0x01#6)
  | .andi d a imm => some (encI10 imm a d 0x02#6 0#3)
  | .ori d a imm => some (encI10 imm a d 0x02#6 1#3)
  | .xori d a imm => some (encI10 imm a d 0x02#6 2#3)
  | .slti d a imm => some (encI10 imm a d 0x02#6 3#3)
  | .sltni d a imm => some (encI10 imm a d 0x02#6 4#3)
  | .slli d a imm => some (enc32 0#1 (0#3 ++ imm.extractLsb' 4 2) a d 0x02#6 (5#3 ++ imm.extractLsb' 0 4))
  | .srli d a imm => some (enc32 0#1 (0#3 ++ imm.extractLsb' 4 2) a d 0x02#6 (6#3 ++ imm.extractLsb' 0 4))
  | .srai d a imm => some (enc32 0#1 (0#3 ++ imm.extractLsb' 4 2) a d 0x02#6 (7#3 ++ imm.extractLsb' 0 4))
  | .lhi d imm => some (encI18 imm d 0x03#6)
  | .pcadd d imm => some (encI18 imm d 0x04#6)
  | .ldB d a imm => some (encI10 imm a d 0x05#6 0#3)
  | .ldBn d a imm => some (encI10 imm a d 0x05#6 1#3)
  | .ldH d a imm => some (encI10 imm a d 0x05#6 2#3)
  | .ldHn d a imm => some (encI10 imm a d 0x05#6 3#3)
  | .ldW d a imm => some (encI10 imm a d 0x05#6 4#3)
  | .ldWn d a imm => some (encI10 imm a d 0x05#6 5#3)
  | .ldD d a imm => some (encI10 imm a d 0x05#6 6#3)
  | .stB b a imm => some (encI10 imm a b 0x06#6 0#3)
  | .stH b a imm => some (encI10 imm a b 0x06#6 1#3)
  | .stW b a imm => some (encI10 imm a b 0x06#6 2#3)
  | .stD b a imm => some (encI10 imm a b 0x06#6 3#3)
  | .ldAcqW d a sc => some (encAs sc 0#5 a d 0x07#6 0#4)
  | .ldAcqD d a sc => some (encAs sc 0#5 a d 0x07#6 1#4)
  | .stRelW b a sc => some (encAs sc 0#5 a b 0x07#6 2#4)
  | .stRelD b a sc => some (encAs sc 0#5 a b 0x07#6 3#4)
  | .beq a b imm => some (encI11 imm b a 0x08#6 0#2)
  | .bne a b imm => some (encI11 imm b a 0x08#6 1#2)
  | .blt a b imm => some (encI11 imm b a 0x08#6 2#2)
  | .bge a b imm => some (encI11 imm b a 0x08#6 3#2)
  | .bltn a b imm => some (encI11 imm b a 0x09#6 0#2)
  | .bgen a b imm => some (encI11 imm b a 0x09#6 1#2)
  | .bbs a b imm => some (encI11 imm b a 0x09#6 2#2)
  | .bbc a b imm => some (encI11 imm b a 0x09#6 3#2)
  | .jal d imm => some (encI18 imm d 0x0A#6)
  | .jalr d a imm => some (encI13 imm a d 0x0B#6)
  | .loop k a imm => some (encI13 imm a (0#4 ++ k) 0x0C#6)
  | .amoadd w d b a sc => some (enc32 w b a d 0x0D#6 (0#3 ++ sc))
  | .amoand w d b a sc => some (enc32 w b a d 0x0D#6 (1#3 ++ sc))
  | .amoor w d b a sc => some (enc32 w b a d 0x0D#6 (2#3 ++ sc))
  | .amoxor w d b a sc => some (enc32 w b a d 0x0D#6 (3#3 ++ sc))
  | .amomin w d b a sc => some (enc32 w b a d 0x0D#6 (4#3 ++ sc))
  | .amomax w d b a sc => some (enc32 w b a d 0x0D#6 (5#3 ++ sc))
  | .amoswap w d b a sc => some (enc32 w b a d 0x0D#6 (6#3 ++ sc))
  | .amocas w d b a sc => some (enc32 w b a d 0x0D#6 (7#3 ++ sc))
  | .amoaddAcqrel w d b a sc => some (enc32 w b a d 0x0E#6 (0#3 ++ sc))
  | .amoandAcqrel w d b a sc => some (enc32 w b a d 0x0E#6 (1#3 ++ sc))
  | .amoorAcqrel w d b a sc => some (enc32 w b a d 0x0E#6 (2#3 ++ sc))
  | .amoxorAcqrel w d b a sc => some (enc32 w b a d 0x0E#6 (3#3 ++ sc))
  | .amominAcqrel w d b a sc => some (enc32 w b a d 0x0E#6 (4#3 ++ sc))
  | .amomaxAcqrel w d b a sc => some (enc32 w b a d 0x0E#6 (5#3 ++ sc))
  | .amoswapAcqrel w d b a sc => some (enc32 w b a d 0x0E#6 (6#3 ++ sc))
  | .amocasAcqrel w d b a sc => some (enc32 w b a d 0x0E#6 (7#3 ++ sc))
  | .fenceSv sc => some (enc32 (sc.extractLsb' 3 1) (sc.extractLsb' 0 3 ++ 0#2) 0#5 0#5 0x0F#6 0#7)
  | .fenceVs sc => some (enc32 (sc.extractLsb' 3 1) (sc.extractLsb' 0 3 ++ 0#2) 0#5 0#5 0x0F#6 16#7)
  | .fenceVv sc => some (enc32 (sc.extractLsb' 3 1) (sc.extractLsb' 0 3 ++ 0#2) 0#5 0#5 0x0F#6 32#7)
  | .fenceAll sc => some (enc32 (sc.extractLsb' 3 1) (sc.extractLsb' 0 3 ++ 0#2) 0#5 0#5 0x0F#6 48#7)
  | .fenceStk n => some (enc32 0#1 0#5 0#5 0#5 0x0F#6 (4#3 ++ n))
  | .icsync sc => some (enc32 (sc.extractLsb' 3 1) (sc.extractLsb' 0 3 ++ 0#2) 0#5 0#5 0x0F#6 80#7)
  | .ecall => some (enc32 0#1 0#5 0#5 0#5 0x10#6 0#7)
  | .ebreak => some (enc32 0#1 0#5 0#5 0#5 0x10#6 16#7)
  | .eret => some (enc32 0#1 0#5 0#5 0#5 0x10#6 32#7)
  | .uret => some (enc32 0#1 0#5 0#5 0#5 0x10#6 48#7)
  | .pause => some (enc32 0#1 0#5 0#5 0#5 0x10#6 64#7)
  | .csrr d csr => some (encI11 csr 0#5 d 0x11#6 0#2)
  | .csrw d csr a => some (encI11 csr a d 0x11#6 1#2)
  | .csrs d csr a => some (encI11 csr a d 0x11#6 2#2)
  | .csrc d csr a => some (encI11 csr a d 0x11#6 3#2)
  | .fadd t d a b => some (enc32 0#1 b a d 0x12#6 (0#5 ++ t))
  | .fsub t d a b => some (enc32 0#1 b a d 0x12#6 (1#5 ++ t))
  | .fmul t d a b => some (enc32 0#1 b a d 0x12#6 (2#5 ++ t))
  | .fdiv t d a b => some (enc32 0#1 b a d 0x12#6 (3#5 ++ t))
  | .fsqrt t d a => some (enc32 0#1 0#5 a d 0x12#6 (4#5 ++ t))
  | .fmin t d a b => some (enc32 0#1 b a d 0x12#6 (5#5 ++ t))
  | .fmax t d a b => some (enc32 0#1 b a d 0x12#6 (6#5 ++ t))
  | .fsgnj t d a b => some (enc32 0#1 b a d 0x12#6 (7#5 ++ t))
  | .fsgnjn t d a b => some (enc32 0#1 b a d 0x12#6 (8#5 ++ t))
  | .fsgnjx t d a b => some (enc32 0#1 b a d 0x12#6 (9#5 ++ t))
  | .feq t d a b => some (enc32 0#1 b a d 0x12#6 (10#5 ++ t))
  | .flt t d a b => some (enc32 0#1 b a d 0x12#6 (11#5 ++ t))
  | .fle t d a b => some (enc32 0#1 b a d 0x12#6 (12#5 ++ t))
  | .fclass t d a => some (enc32 0#1 0#5 a d 0x12#6 (13#5 ++ t))
  | .fcvtI t u d a => some (enc32 0#1 (0#4 ++ u) a d 0x12#6 (14#5 ++ t))
  | .fcvtF t u d a => some (enc32 0#1 (0#4 ++ u) a d 0x12#6 (15#5 ++ t))
  | .fcvtFf t g d a => some (enc32 0#1 (0#3 ++ g) a d 0x12#6 (16#5 ++ t))
  | .fma f d a b e => some (enc32 f b a d 0x13#6 (e ++ 0#2))
  | .fms f d a b e => some (enc32 f b a d 0x13#6 (e ++ 1#2))
  | .fnma f d a b e => some (enc32 f b a d 0x13#6 (e ++ 2#2))
  | .fnms f d a b e => some (enc32 f b a d 0x13#6 (e ++ 3#2))
  | .vcfg d cnt sew alt => some (enc32 0#1 0#5 0#5 d 0x20#6 (0#1 ++ alt ++ sew ++ cnt))
  | .vadd p d a b g c => some (encV p b a d 0x21#6 0#3 g c)
  | .vsub p d a b g c => some (encV p b a d 0x21#6 1#3 g c)
  | .vmul p d a b g c => some (encV p b a d 0x21#6 2#3 g c)
  | .vmulh p d a b g c => some (encV p b a d 0x21#6 3#3 g c)
  | .vmulhn p d a b g c => some (encV p b a d 0x21#6 4#3 g c)
  | .vmin p d a b g c => some (encV p b a d 0x21#6 5#3 g c)
  | .vminn p d a b g c => some (encV p b a d 0x21#6 6#3 g c)
  | .vmax p d a b g c => some (encV p b a d 0x21#6 7#3 g c)
  | .vmaxn p d a b g c => some (encV p b a d 0x22#6 0#3 g c)
  | .vand p d a b g c => some (encV p b a d 0x22#6 1#3 g c)
  | .vor p d a b g c => some (encV p b a d 0x22#6 2#3 g c)
  | .vxor p d a b g c => some (encV p b a d 0x22#6 3#3 g c)
  | .vsll p d a b g c => some (encV p b a d 0x22#6 4#3 g c)
  | .vsrl p d a b g c => some (encV p b a d 0x22#6 5#3 g c)
  | .vsra p d a b g c => some (encV p b a d 0x22#6 6#3 g c)
  | .vandn p d a b g c => some (encV p b a d 0x22#6 7#3 g c)
  | .vdiv p d a b g c => some (encV p b a d 0x23#6 0#3 g c)
  | .vdivn p d a b g c => some (encV p b a d 0x23#6 1#3 g c)
  | .vrem p d a b g c => some (encV p b a d 0x23#6 2#3 g c)
  | .vremn p d a b g c => some (encV p b a d 0x23#6 3#3 g c)
  | .vsadd p d a b g c => some (encV p b a d 0x23#6 4#3 g c)
  | .vsaddn p d a b g c => some (encV p b a d 0x23#6 5#3 g c)
  | .vssub p d a b g c => some (encV p b a d 0x23#6 6#3 g c)
  | .vssubn p d a b g c => some (encV p b a d 0x23#6 7#3 g c)
  | .vfadd p d a b g c => some (encV p b a d 0x24#6 0#3 g c)
  | .vfsub p d a b g c => some (encV p b a d 0x24#6 1#3 g c)
  | .vfmul p d a b g c => some (encV p b a d 0x24#6 2#3 g c)
  | .vfdiv p d a b g c => some (encV p b a d 0x24#6 3#3 g c)
  | .vfmin p d a b g c => some (encV p b a d 0x24#6 4#3 g c)
  | .vfmax p d a b g c => some (encV p b a d 0x24#6 5#3 g c)
  | .vfsgnj p d a b g c => some (encV p b a d 0x24#6 6#3 g c)
  | .vfsgnjn p d a b g c => some (encV p b a d 0x24#6 7#3 g c)
  | .vfma p d a b g c => some (encV p b a d 0x25#6 0#3 g c)
  | .vfms p d a b g c => some (encV p b a d 0x25#6 1#3 g c)
  | .vfnma p d a b g c => some (encV p b a d 0x25#6 2#3 g c)
  | .vfnms p d a b g c => some (encV p b a d 0x25#6 3#3 g c)
  | .vmacc p d a b g c => some (encV p b a d 0x25#6 4#3 g c)
  | .vmsac p d a b g c => some (encV p b a d 0x25#6 5#3 g c)
  | .vfscale p d a b g c => some (encV p b a d 0x25#6 6#3 g c)
  | .vabs p d a g c => some (encV p 0#5 a d 0x26#6 0#3 g c)
  | .vneg p d a g c => some (encV p 1#5 a d 0x26#6 0#3 g c)
  | .vnot p d a g c => some (encV p 2#5 a d 0x26#6 0#3 g c)
  | .vclz p d a g c => some (encV p 3#5 a d 0x26#6 0#3 g c)
  | .vpopc p d a g c => some (encV p 4#5 a d 0x26#6 0#3 g c)
  | .vid p d g c => some (encV p 5#5 0#5 d 0x26#6 0#3 g c)
  | .viota p d m g c => some (encV p 6#5 m d 0x26#6 0#3 g c)
  | .vfsqrt p d a g c => some (encV p 0#5 a d 0x26#6 1#3 g c)
  | .vfabs p d a g c => some (encV p 1#5 a d 0x26#6 1#3 g c)
  | .vfneg p d a g c => some (encV p 2#5 a d 0x26#6 1#3 g c)
  | .vfclass p d a g c => some (encV p 3#5 a d 0x26#6 1#3 g c)
  | .vfround p d a g c => some (encV p 4#5 a d 0x26#6 1#3 g c)
  | .vfexpo p d a g c => some (encV p 5#5 a d 0x26#6 1#3 g c)
  | .vfmant p d a g c => some (encV p 6#5 a d 0x26#6 1#3 g c)
  | .vaddX p d a b g c => some (encV p b a d 0x27#6 0#3 g c)
  | .vrsubX p d a b g c => some (encV p b a d 0x27#6 1#3 g c)
  | .vmulX p d a b g c => some (encV p b a d 0x27#6 2#3 g c)
  | .vsllX p d a b g c => some (encV p b a d 0x27#6 3#3 g c)
  | .vfaddX p d a b g c => some (encV p b a d 0x27#6 4#3 g c)
  | .vfrsubX p d a b g c => some (encV p b a d 0x27#6 5#3 g c)
  | .vfmulX p d a b g c => some (encV p b a d 0x27#6 6#3 g c)
  | .vfmaX p d a b g c => some (encV p b a d 0x27#6 7#3 g c)
  | .vcvt p dst src d a g c => some (enc32 p (src.extractLsb' 3 1 ++ dst) a d 0x39#6 (src.extractLsb' 0 3 ++ g ++ c))
  | .vcmpEq m a b g c => some (encV 0#1 b a m 0x28#6 0#3 g c)
  | .vcmpNe m a b g c => some (encV 0#1 b a m 0x28#6 1#3 g c)
  | .vcmpLt m a b g c => some (encV 0#1 b a m 0x28#6 2#3 g c)
  | .vcmpGe m a b g c => some (encV 0#1 b a m 0x28#6 3#3 g c)
  | .vcmpLtn m a b g c => some (encV 0#1 b a m 0x28#6 4#3 g c)
  | .vcmpGen m a b g c => some (encV 0#1 b a m 0x28#6 5#3 g c)
  | .vfcmpEq m a b g c => some (encV 0#1 b a m 0x29#6 0#3 g c)
  | .vfcmpNe m a b g c => some (encV 0#1 b a m 0x29#6 1#3 g c)
  | .vfcmpLt m a b g c => some (encV 0#1 b a m 0x29#6 2#3 g c)
  | .vfcmpLe m a b g c => some (encV 0#1 b a m 0x29#6 3#3 g c)
  | .vfcmpGt m a b g c => some (encV 0#1 b a m 0x29#6 4#3 g c)
  | .vfcmpGe m a b g c => some (encV 0#1 b a m 0x29#6 5#3 g c)
  | .vfcmpUn m a b g c => some (encV 0#1 b a m 0x29#6 6#3 g c)
  | .whileLt m a b => some (enc32 0#1 b a m 0x2A#6 0#7)
  | .whileLe m a b => some (enc32 0#1 b a m 0x2A#6 8#7)
  | .whileLtn m a b => some (enc32 0#1 b a m 0x2A#6 16#7)
  | .whileLen m a b => some (enc32 0#1 b a m 0x2A#6 24#7)
  | .mand d a b g => some (enc32 0#1 b a d 0x2B#6 (0#4 ++ g))
  | .mor d a b g => some (enc32 0#1 b a d 0x2B#6 (1#4 ++ g))
  | .mxor d a b g => some (enc32 0#1 b a d 0x2B#6 (2#4 ++ g))
  | .mandn d a b g => some (enc32 0#1 b a d 0x2B#6 (3#4 ++ g))
  | .mnot d a g => some (enc32 0#1 0#5 a d 0x2B#6 (4#4 ++ g))
  | .mmov d a g => some (enc32 0#1 0#5 a d 0x2B#6 (5#4 ++ g))
  | .mff d a g => some (enc32 0#1 0#5 a d 0x2B#6 (6#4 ++ g))
  | .mset d g => some (enc32 0#1 0#5 0#5 d 0x2B#6 (7#4 ++ g))
  | .mclr d g => some (enc32 0#1 0#5 0#5 d 0x2B#6 (8#4 ++ g))
  | .mbset d a => some (enc32 0#1 a 0#5 d 0x2B#6 (9#4 ++ 0#3))
  | .mbclr d a => some (enc32 0#1 a 0#5 d 0x2B#6 (10#4 ++ 0#3))
  | .mpop d a g => some (enc32 0#1 0#5 a d 0x2B#6 (11#4 ++ g))
  | .mfirst d a g => some (enc32 0#1 0#5 a d 0x2B#6 (12#4 ++ g))
  | .mbrk d a g => some (enc32 0#1 0#5 a d 0x2B#6 (13#4 ++ g))
  | .vslideup p d a b g c => some (encV p b a d 0x2C#6 0#3 g c)
  | .vslidedn p d a b g c => some (encV p b a d 0x2C#6 1#3 g c)
  | .vperm p d a b g c => some (encV p b a d 0x2C#6 2#3 g c)
  | .vcompress p d a g c => some (encV p 0#5 a d 0x2C#6 3#3 g c)
  | .vexpand p d a g c => some (encV p 0#5 a d 0x2C#6 4#3 g c)
  | .vconf p d a g c => some (encV p 0#5 a d 0x2C#6 5#3 g c)
  | .vsprs p d a g c => some (encV p 0#5 a d 0x2C#6 6#3 g c)
  | .vredsum p d a g c => some (encV p 0#5 a d 0x2D#6 0#3 g c)
  | .vredmin p d a g c => some (encV p 0#5 a d 0x2D#6 1#3 g c)
  | .vredminn p d a g c => some (encV p 0#5 a d 0x2D#6 2#3 g c)
  | .vredmax p d a g c => some (encV p 0#5 a d 0x2D#6 3#3 g c)
  | .vredmaxn p d a g c => some (encV p 0#5 a d 0x2D#6 4#3 g c)
  | .vfredsum p d a g c => some (encV p 0#5 a d 0x2D#6 5#3 g c)
  | .vfredmin p d a g c => some (encV p 0#5 a d 0x2D#6 6#3 g c)
  | .vfredmax p d a g c => some (encV p 0#5 a d 0x2D#6 7#3 g c)
  | .vdup p d a g c => some (encV p 0#5 a d 0x2E#6 0#3 g c)
  | .vext p d a b c => some (encV p b a d 0x2E#6 1#3 0#3 c)
  | .vins p d a b c => some (encV p b a d 0x2E#6 2#3 0#3 c)
  | .vmv p d a g c => some (encV p 0#5 a d 0x2E#6 3#3 g c)
  | .vmerge p d a b g c => some (encV p b a d 0x2E#6 4#3 g c)
  | .vmovcb d a g => some (encV 0#1 0#5 a d 0x2E#6 5#3 g 0#1)
  | .vmovbc d a g => some (encV 0#1 0#5 a d 0x2E#6 6#3 g 0#1)
  | .vscanAdd p d a g c => some (encV p 0#5 a d 0x2F#6 0#3 g c)
  | .vscanMax p d a g c => some (encV p 0#5 a d 0x2F#6 1#3 g c)
  | .vscanMin p d a g c => some (encV p 0#5 a d 0x2F#6 2#3 g c)
  | .vfscanAdd p d a g c => some (encV p 0#5 a d 0x2F#6 3#3 g c)
  | .vfscanMax p d a g c => some (encV p 0#5 a d 0x2F#6 4#3 g c)
  | .vfscanMin p d a g c => some (encV p 0#5 a d 0x2F#6 5#3 g c)
  | .vrec p d a b g c => some (encV p b a d 0x2F#6 6#3 g c)
  | .vld p d a g c => some (encV p 0#5 a d 0x30#6 0#3 g c)
  | .vldAcq d a g c => some (encV 0#1 0#5 a d 0x30#6 1#3 g c)
  | .vldV d a g c => some (encV 1#1 0#5 a d 0x30#6 2#3 g c)
  | .vldL d a g c => some (encV 1#1 0#5 a d 0x30#6 3#3 g c)
  | .vldNt d a g c => some (encV 0#1 0#5 a d 0x30#6 4#3 g c)
  | .vlds p d a b g c => some (encV p b a d 0x31#6 0#3 g c)
  | .vldsAcq d a b g c => some (encV 0#1 b a d 0x31#6 1#3 g c)
  | .vldsV d a b g c => some (encV 1#1 b a d 0x31#6 2#3 g c)
  | .vldsL d a b g c => some (encV 1#1 b a d 0x31#6 3#3 g c)
  | .vldsNt d a b g c => some (encV 0#1 b a d 0x31#6 4#3 g c)
  | .vldx d a b g c => some (encV 0#1 b a d 0x32#6 0#3 g c)
  | .vldxB d a b g c => some (encV 0#1 b a d 0x32#6 1#3 g c)
  | .vldxBd d a b g c => some (encV 0#1 b a d 0x32#6 2#3 g c)
  | .vldxV d a b g c => some (encV 1#1 b a d 0x32#6 3#3 g c)
  | .vldxL d a b g c => some (encV 1#1 b a d 0x32#6 4#3 g c)
  | .vldxVbd d a b g c => some (encV 1#1 b a d 0x32#6 5#3 g c)
  | .vldxLbd d a b g c => some (encV 1#1 b a d 0x32#6 6#3 g c)
  | .vst p d a g c => some (encV p 0#5 a d 0x33#6 0#3 g c)
  | .vstV d a g c => some (encV 1#1 0#5 a d 0x33#6 2#3 g c)
  | .vstL d a g c => some (encV 1#1 0#5 a d 0x33#6 3#3 g c)
  | .vstNt d a g c => some (encV 0#1 0#5 a d 0x33#6 4#3 g c)
  | .vsts p d a b g c => some (encV p b a d 0x34#6 0#3 g c)
  | .vstsV d a b g c => some (encV 1#1 b a d 0x34#6 2#3 g c)
  | .vstsL d a b g c => some (encV 1#1 b a d 0x34#6 3#3 g c)
  | .vstsNt d a b g c => some (encV 0#1 b a d 0x34#6 4#3 g c)
  | .vstx d a b g c => some (encV 0#1 b a d 0x35#6 0#3 g c)
  | .vstxB d a b g c => some (encV 0#1 b a d 0x35#6 1#3 g c)
  | .vstxBd d a b g c => some (encV 0#1 b a d 0x35#6 2#3 g c)
  | .vstxV d a b g c => some (encV 1#1 b a d 0x35#6 3#3 g c)
  | .vstxL d a b g c => some (encV 1#1 b a d 0x35#6 4#3 g c)
  | .vstxVbd d a b g c => some (encV 1#1 b a d 0x35#6 5#3 g c)
  | .vstxLbd d a b g c => some (encV 1#1 b a d 0x35#6 6#3 g c)
  | .vwin o a b => some (encV 0#1 b a o 0x36#6 0#3 0#3 0#1)
  | .vwred a b g c => some (encV 0#1 b a 0#5 0x36#6 1#3 g c)
  | .vwmerge => some (encV 0#1 0#5 0#5 0#5 0x36#6 2#3 0#3 0#1)
  | .vwdrop => some (encV 0#1 0#5 0#5 0#5 0x36#6 3#3 0#3 0#1)
  | .copyL d a b => some (enc32 0#1 b a d 0x37#6 0#7)
  | .copy2d d a b => some (enc32 0#1 b a d 0x37#6 8#7)
  | .copyG d a b => some (enc32 0#1 b a d 0x37#6 16#7)
  | .copyS d a b => some (enc32 0#1 b a d 0x37#6 24#7)
  | .embw d a b => some (enc32 0#1 b a d 0x37#6 32#7)
  | .stprobe m v a b => some (encAs m b a v 0x37#6 5#4)
  | .stfill v a b g => some (enc32 0#1 b a v 0x37#6 (6#4 ++ g))
  | .stctlStream a b => some (enc32 0#1 0#5 b a 0x37#6 56#7)
  | .stctlAsid a b => some (enc32 0#1 0#5 b a 0x37#6 56#7)
  | .stctlAll a b => some (enc32 0#1 0#5 b a 0x37#6 56#7)
  | .cname n a b => some (enc32 0#1 b a n 0x37#6 64#7)
  | .collAllReduce n a b => some (enc32 0#1 b a n 0x37#6 72#7)
  | .collAllGather n a b => some (enc32 0#1 b a n 0x37#6 72#7)
  | .collReduceScatter n a b => some (enc32 0#1 b a n 0x37#6 72#7)
  | .pmig a b => some (enc32 0#1 0#5 b a 0x37#6 80#7)
  | .awarm a b => some (enc32 0#1 0#5 b a 0x38#6 0#7)
  | .awadd a b sc => some (encAs sc 0#5 b a 0x38#6 1#4)
  | .waitGen a b sc => some (encAs sc 0#5 b a 0x38#6 2#4)
  | .waitNe a b sc => some (encAs sc 0#5 b a 0x38#6 3#4)
  | .carrive a b => some (enc32 0#1 0#5 b a 0x38#6 32#7)
  | .cwait a b => some (enc32 0#1 0#5 b a 0x38#6 40#7)
  | .gbar => some (enc32 0#1 0#5 0#5 0#5 0x38#6 48#7)
  | .launch d a => some (enc32 0#1 0#5 a d 0x38#6 56#7)
  | .farmnext d => some (enc32 0#1 0#5 0#5 d 0x38#6 64#7)
  | .retire => some (enc32 0#1 0#5 0#5 0#5 0x38#6 72#7)
  | .bsync => some (enc32 0#1 0#5 0#5 0#5 0x38#6 80#7)
  | .cAddi d imm => some (enc16 (0#6 ++ d ++ imm))
  | .cLi d imm => some (enc16 (1#6 ++ d ++ imm))
  | .cLhi d imm => some (enc16 (2#6 ++ d ++ imm))
  | .cSlli d imm => some (enc16 (3#6 ++ d ++ 0#1 ++ imm))
  | .cSrli d imm => some (enc16 (4#6 ++ d ++ 0#1 ++ imm))
  | .cSrai d imm => some (enc16 (5#6 ++ d ++ 0#1 ++ imm))
  | .cAdd d a => some (enc16 (8#6 ++ d ++ a ++ 0#4))
  | .cSub d a => some (enc16 (9#6 ++ d ++ a ++ 0#4))
  | .cMv d a => some (enc16 (10#6 ++ d ++ a ++ 0#4))
  | .cAnd d a => some (enc16 (11#6 ++ d ++ a ++ 0#4))
  | .cOr d a => some (enc16 (12#6 ++ d ++ a ++ 0#4))
  | .cXor d a => some (enc16 (13#6 ++ d ++ a ++ 0#4))
  | .cLdW d a imm => some (enc16 (8#5 ++ d ++ a ++ imm))
  | .cStW b a imm => some (enc16 (9#5 ++ b ++ a ++ imm))
  | .cLdD d imm => some (enc16 (10#5 ++ d ++ 0#2 ++ imm))
  | .cStD b imm => some (enc16 (11#5 ++ b ++ 0#2 ++ imm))
  | .cJ imm => some (enc16 (3#3 ++ imm))
  | .cBeqz a imm => some (enc16 (8#4 ++ a ++ imm))
  | .cBnez a imm => some (enc16 (9#4 ++ a ++ imm))
  | .cJr a => some (enc16 (40#6 ++ a ++ 0#5))
  | .cJalr a => some (enc16 (41#6 ++ a ++ 0#5))
  | .cRet => some (enc16 (43008#16))
  | .cNop => some (enc16 (44032#16))
  | .cEbreak => some (enc16 (45056#16))
  | .mshape xs => some (enc64 (word64 0#1 0#1 0#1 0#4 0#4 xs 0#5 0#5 0#5 0#6 0#1))
  | .mzero t => some (enc64 (word64 0#1 0#1 0#1 0#4 0#4 0#5 0#5 0#5 0#5 1#6 t))
  | .mma t va vb fa fb neg sat ovw => some (enc64 (word64 ovw sat neg fb fa 0#5 0#5 vb va 2#6 t))
  | .mmas t va vb vx fa fb neg sat ovw => some (enc64 (word64 ovw sat neg fb fa 0#5 vx vb va 3#6 t))
  | .mmag t va vb xs fa fb neg sat ovw => some (enc64 (word64 ovw sat neg fb fa xs 0#5 vb va 4#6 t))
  | .mmax t va vb vx fa fb neg sat ovw => some (enc64 (word64 ovw sat neg fb fa 0#5 vx vb va 5#6 t))
  | .mtv va t xs => some (enc64 (word64 0#1 0#1 0#1 0#4 0#4 xs 0#5 0#5 va 6#6 t))
  | .mvt t va xs => some (enc64 (word64 0#1 0#1 0#1 0#4 0#4 xs 0#5 0#5 va 7#6 t))
  | .msync => some (enc64 (word64 0#1 0#1 0#1 0#4 0#4 0#5 0#5 0#5 0#5 8#6 0#1))
  | .convoyGroupCommit _ => none
  | .brimGroupCommit _ => none
  | .brimConvoyComplete _ => none
  | .brimSyncSend _ => none
  | .bsyncDone _ => none
  | .vcfgReshape _ => none
  | .fenceDone _ => none
  | .icsyncDone _ => none
  | .csrWriteApply _ => none
  | .releaseStorePerform _ => none
  | .awaddContribution _ => none
  | .nearMemoryAtomic _ => none
  | .loadDataReturn _ => none
  | .waitWake _ => none
  | .gbarRelease _ => none
  | .carriveArrival _ => none
  | .pauseExpiry _ => none
  | .issueFairness _ => none
  | .clockGate _ => none
  | .powerGate _ => none
  | .residencyReport _ => none
  | .matrixPost _ => none
  | .matrixEntryComplete _ => none
  | .mtvPost _ => none
  | .mshapeApply _ => none
  | .msyncDone _ => none
  | .translationWalkDone _ => none
  | .walkerFailure _ => none
  | .xinvComplete _ => none
  | .launchHandoff _ => none
  | .launchAccept => none
  | .dependenceReached _ => none
  | .farmServe => none
  | .sliceSpillDone => none
  | .hartStart => none
  | .stripHandout _ => none
  | .retireLeave _ => none
  | .farmComplete _ => none
  | .farmFail _ _ => none
  | .starvationPromotion _ => none
  | .engineEnqueue _ => none
  | .copyChunkDelivery _ _ => none
  | .embeddingRecordDone _ _ => none
  | .probeDecision _ => none
  | .tileSettled _ _ => none
  | .fillEntry _ => none
  | .stctlDone _ => none
  | .collComplete _ => none
  | .collTimeout _ => none
  | .pmigCopyDone _ => none
  | .dramRatioChange _ => none
  | .crownLatencyTarget _ _ => none
  | .ualinkRequestIn _ => none
  | .ualinkResponse _ _ _ => none
  | .ualinkRequestTimeout _ => none
  | .ualinkLaneFailure _ _ => none
  | .spinelLinkFailed _ => none
  | .clusterLinkFailed _ _ _ => none
  | .berylPortDown => none
  | .berylPortUp => none
  | .mwrite _ _ _ _ => none
  | .mread _ _ _ => none
  | .launchMessage _ _ _ _ _ _ => none
  | .signal _ _ _ => none
  | .replay _ _ => none
  | .attest _ _ => none
  | .attestReply => none
  | .malformedMessage _ => none
  | .mgmtIdentify _ => none
  | .mgmtReset _ => none
  | .mgmtCsrWrite _ _ _ => none
  | .mgmtCsrRead _ _ => none
  | .mgmtExtend _ _ => none
  | .mgmtFirmwareWrite _ _ _ _ => none
  | .mgmtSetIdentity _ _ _ => none
  | .mgmtEndFarm _ _ => none
  | .powerGood => none
  | .berylTrained => none
  | .firmwareVerify => none
  | .trainingDone => none
  | .thermalTrip _ => none
  | .throttle _ _ => none
  | .fpctlWrite _ => none
  | .ffxWrite _ => none
  | .bsumWrite _ => none
  | .ptbaseWrite _ => none
  | .xinvPage _ => none
  | .xinvAll _ => none
  | .fbtailWrite _ => none
  | .fbbaseWrite _ => none
  | .fbsizeWrite _ => none
  | .spbaseWrite _ => none
  | .spsizeWrite _ => none
  | .bsaveWrite _ => none
  | .pwrcapWrite _ => none
  | .stabaseWrite _ => none
  | .stalimitWrite _ => none
  | .acdataRead _ => none
  | .stcdataRead _ => none
  | .wstatRead _ => none
  | .cerrRead _ => none
  | .fcstatRead _ => none
  | .brstatRead _ => none
  | .pwrstatRead _ => none
  | .registerWrite _ => none
  | .powerRemoved => none
  | .notAnInstruction => none
  | .instructionFetchFault => none
  | .spinelRequestIn _ => none
  | .crownToStackLinkFailed _ => none
  | .failedRead _ _ => none
  | .storePerformed _ _ => none

end Sys2Proof
end

