-- ==== Sys2Proof/Machine/Bits.lean ====
section
/-! DEFINITION. Bits.lean: bit fields, sign extension and the byte order of values (R3, R7, R92). -/

namespace Sys2Proof.Machine

/-- sext(): the value of a narrow field as a 64-bit word (R92). -/
def sext {n : Nat} (v : BitVec n) : Word := v.signExtend 64

/-- zext() (R92). -/
def zext {n : Nat} (v : BitVec n) : Word := v.setWidth 64

/-- wrap64() of an integer (R7). -/
def wrap64 (i : Int) : Word := BitVec.ofInt 64 i

/-- 1 or 0, as a compare writes it. -/
def ofBool (b : Bool) : Word := if b then 1 else 0

/-- The low 32 bits of a word (R95). -/
def low32 (w : Word) : BitVec 32 := w.setWidth 32

/-- Bits [lo+n−1:lo] of a word. -/
def field (w : Word) (lo n : Nat) : BitVec n := w.extractLsb' lo n

/-- The word with bits [lo+n−1:lo] replaced. -/
def setField {n : Nat} (w : Word) (lo : Nat) (v : BitVec n) : Word :=
  (w &&& ~~~(((BitVec.allOnes n).setWidth 64) <<< lo)) ||| (v.setWidth 64 <<< lo)

/-- Bit `n` of a word. -/
def bit (w : Word) (n : Nat) : Bool := w.getLsbD n

/-- A mask of the bits [hi:lo] of a word. -/
def bitsMask (hi lo : Nat) : Word := BitVec.ofNat 64 (2 ^ (hi + 1) - 2 ^ lo)

/-- The word that little-endian bytes hold (R3). -/
def wordOf (bs : List Byte) : Word := BitVec.ofNat 64 (leNat bs)

/-- The `n` bytes of a word in memory order (R3). -/
def bytesOf (w : Word) (n : Nat) : List Byte := toBytes w.toNat n

/-- The minimum of a 64-bit value, read as n64, and a bound. -/
def minNat (w : Word) (bound : Nat) : Word := BitVec.ofNat 64 (min w.toNat bound)

/-- A count that stops at its largest value. -/
def satAdd {n : Nat} (a : BitVec n) (k : Nat) : BitVec n := BitVec.ofNat n (min (a.toNat + k) (2 ^ n - 1))

/-- Elements `0` to `n−1` of something, as a list. -/
def tabulate {α : Type} (n : Nat) (f : Nat → α) : List α := (List.range n).map f

/-- The numbers of a value's set bits among `0` to `n−1`, ascending. -/
def bitList {w : Nat} (v : BitVec w) (n : Nat) : List Nat := (List.range n).filter fun i => v.getLsbD i

/-- A fold over the numbers `0` to `n−1`, ascending. -/
def upTo {α : Type} (n : Nat) (init : α) (f : α → Nat → α) : α := (List.range n).foldl f init

end Sys2Proof.Machine
end

