-- ==== Sys2Proof/Config.lean ====
section
/-! DEFINITION. Config.lean: what one part fixes, and the free values: constants with no body, for the values the spec
leaves open (assumption log 7). Nothing in Lean can evaluate one, so a statement about it holds whatever it is. -/

namespace Sys2Proof

/-- The steppings of the ordering codes (R1). -/
inductive Stepping where
  | a1
  | b0
  deriving DecidableEq, Repr, Inhabited

namespace Config

/-- The stepping of this part: one of the two of R1, which one is not known. -/
opaque stepping : Stepping

/-- The identification word of R2. -/
def identificationWord : BitVec 32 :=
  match stepping with
  | .a1 => 0x916117E3#32
  | .b0 => 0x916207E3#32

/-- Free: the cycles, beyond one, that passed between the last two reads of one core's CYC (R209). -/
opaque cycleGap : Nat → Nat

/-- Free: which of the choices that R286, R299, R328 and R356 leave to the device it takes. -/
opaque choice : Nat → Nat

/-- Free: the bytes of the internal blocks of a context save area (R295), by draw and byte offset. -/
opaque internalByte : Nat → Nat → Byte

/-- Free: a reading of package power in watts, averaged over 1 ms (R382). -/
opaque watts : Nat → BitVec 12

/-- Free: a reading of the hottest junction in degrees Celsius (R382). -/
opaque temperature : Nat → BitVec 8

/-- Free: the bytes that stand for data a read could not deliver (R330), by draw and byte offset. -/
opaque lostByte : Nat → Nat → Byte

/-- Free: whether the device read the data of a trimmed element (R211). -/
opaque readAhead : Nat → Bool

/-- The 64-byte SHAKE256 digest of the root public key that the fuses hold (R386). -/
opaque fuseRootDigest : List Byte

/-- The 32-bit anti-rollback counter in the fuses (R386). -/
opaque fuseCounter : BitVec 32

/-- The root monitor image in the band-die flash (R384). -/
opaque rootMonitor : List Byte

/-- The public key that a firmware image carries; the image's layout is not in the spec (R386). -/
opaque imageKey : List Byte → List Byte

/-- The bytes of an image that are signed, its signature excluded (R386, R387). -/
opaque imageBody : List Byte → List Byte

/-- The signature of an image (R386). -/
opaque imageSignature : List Byte → List Byte

/-- The security version of an image (R386). -/
opaque imageVersion : List Byte → BitVec 32

/-- Which bytes of the firmware region are the untrusted firmware image (R384). -/
opaque imageLength : List (Nat × Byte) → Nat

/-- The device identity key, derived at every boot from a fused secret (R388): the public seed, the secret seed and the
secret of the randomiser, of 32 bytes each. -/
opaque identitySeed : Vector Byte 32
opaque identitySecret : Vector Byte 32
opaque identityPrf : Vector Byte 32

/-- Free: the 32 bytes added to the randomiser of a signature (R388, FIPS 205), by draw. -/
opaque signRandom : Nat → Vector Byte 32

end Config
end Sys2Proof
end

