-- ==== Sys2Proof/Machine/State.lean ====
section
/-! DEFINITION. State.lean: everything the spec gives the package, as plain data; the reasons a step can stop; and the
state after package reset. INVENTORY.md lists every field with its rule and its reset value. -/

namespace Sys2Proof.Machine

/-- Why the machine stops with no next state. -/
inductive Fault where
  /-- Raised by nobody: the spec gives every error of a running part an effect (a trap, a report, a halted hart or a
  failed farm), so no meaning of this model stops the machine. Safe. -/
  | stopped
  deriving DecidableEq, Repr

/-- Why an instruction has no meaning here. -/
inductive Refusal where
  /-- Raised by the arm of `exec` of an instruction that is not modelled yet. Safe: nothing is claimed of it. -/
  | notModelled (mnemonic : String)
  deriving DecidableEq, Repr

/-! ## The hart -/

/-- The privilege mode (R68). -/
inductive Mode where
  | user
  | supervisor
  deriving DecidableEq, Repr

/-- The declared register count of VCFG (R59, R69). -/
inductive Count where
  | c8
  | c16
  | c32
  deriving DecidableEq, Repr

/-- The element width and floating format that VCFG selects by SEW and ALT (R59). -/
inductive Elem where
  | fp64
  | fp32
  | fp16
  | bf16
  | e4m3
  | e5m2
  | e2m1
  deriving DecidableEq, Repr

/-- The user and supervisor CSRs of a hart that hold a value of their own (R87, R112, R412). VCFG, VMAX, HARTID,
COREID, HOMESTK and CYC are computed from other state. -/
structure Csrs where
  fpctl : Word
  ffx : Word
  vxb : Word
  cvret : Word
  lcnt : Vector Word 2
  lstart : Vector Word 2
  lend : Vector Word 2
  mshp : Word
  mskip : Word
  bsum : Word
  bwin : Word
  bseq : Word
  cpaw : Word
  cpopt : Word
  cprows : Word
  cpstride : Word
  collopt : Word
  ststep : Word
  stthr : Word
  stsize : Word
  stmaxrep : Word
  staw : Word
  ststream : Word
  stprobes : Word
  sthits : Word
  stmisses : Word
  stforced : Word
  ststale : Word
  utvec : Word
  uepc : Word
  ucause : Word
  utgrp : Word
  ufei : Word
  utval : Word
  farmid : Word
  strips : Word
  status : Word
  tvec : Word
  tepc : Word
  tcause : Word
  tval : Word
  tgrp : Word
  fei : Word
  tdeleg : Word
  csa : Word
  ptbase : Word
  ctxid : Word
  deriving DecidableEq, Repr

/-- One member of a convoy with what it captured at issue (R78, R316). -/
structure Member where
  /-- The instruction. -/
  instr : Instr
  /-- Its address. -/
  addr : Word
  /-- The scalar operand of its [25:21] field, where that field names an x register. -/
  sa : Word
  /-- The scalar operand of its [30:26] field, where that field names an x register. -/
  sb : Word
  /-- The governing mask as a brim convoy snapped it at the send (R316); `none` in a crown convoy. -/
  snap : Option Mask
  /-- The second mask that a brim `viota` reads, snapped with it. -/
  snap2 : Option Mask
  /-- An element of it has been active in a group already done (R82, first active element). -/
  begun : Bool
  deriving DecidableEq, Repr

/-- A convoy in flight (R75, R76, R316). -/
structure Convoy where
  addr : Word
  /-- Its length in bytes. -/
  len : Nat
  members : List Member
  /-- It runs in the home stack. -/
  brim : Bool
  /-- The hart goes no further until it completes: a synchronisation with the brim agent (R143, R146), or the end of a
  hardware-loop body, which counts at completion (R104). -/
  sync : Bool
  /-- FPCTL.rm and FPCTL.SAT at issue (R26). -/
  rm : BitVec 3
  sat : Bool
  /-- The hart's mode at issue, under which its accesses are checked. -/
  mode : Mode
  /-- The next group to commit. -/
  next : Nat
  /-- BSEQ number of a brim convoy. -/
  seq : BitVec 32
  /-- Values that scalar-writing members have gathered so far, by member index (R142, R145). -/
  partials : List (Nat × Word)
  /-- The program-order number of the convoy among all of the hart (R317, FFX in program order). -/
  order : Nat
  /-- It holds a load (R82, R163). -/
  loads : Bool
  /-- The governing masks of its chunk-acquire loads (R152). -/
  acquires : List (BitVec 5)
  /-- The trim point of a convoy that has trimmed and whose accesses are not all performed (R82, R317). -/
  trim : Option Nat
  deriving DecidableEq, Repr

/-- What a queued matrix instruction does (R224 to R229). -/
inductive MatrixOp where
  | zero
  | mma
  | mmas
  | mmag
  | mmax
  | mtv
  | mvt
  deriving DecidableEq, Repr

/-- An entry of the matrix queue: what posting captures (R218). -/
structure MatrixEntry where
  op : MatrixOp
  tile : BitVec 1
  va : BitVec 5
  vb : BitVec 5
  vx : BitVec 5
  /-- Resolved format codes of R57. -/
  fa : BitVec 4
  fb : BitVec 4
  m : Nat
  n : Nat
  int : Bool
  neg : Bool
  sat : Bool
  ovw : Bool
  xs : Word
  count : Count
  /-- The rows that `mtv` read before it was posted (R229). -/
  rows : List Group
  /-- Convoys issued before it: those of them that are in flight come first (R219). -/
  order : Nat
  deriving DecidableEq, Repr

/-- Where the poison of a tile came from (R231). -/
structure Origin where
  reg : Word
  elem : BitVec 32
  deriving DecidableEq, Repr

/-- The descriptor of an open accumulation window (R203). -/
structure Window where
  base : Word
  entries : Nat
  op : BitVec 5
  elem : Elem
  area : Word
  /-- Entries that `vwmerge` has folded (R207). -/
  merged : Nat
  deriving DecidableEq, Repr

/-- What a sleeping hart watches (R199, R201). -/
inductive Watch where
  | gen (addr : Word) (expected : BitVec 32)
  | ne (addr : Word) (value : Word)
  | slot (slot : Word) (expected : BitVec 32)
  | gbar
  deriving DecidableEq, Repr

/-- What a check of a wait found: the number of writes that its watched word had seen, or the state of its slot. -/
inductive Seen where
  | writes (n : Nat)
  | slot (generation : BitVec 32) (failed : Bool)
  | quiet
  /-- The next check is due. -/
  | due
  deriving DecidableEq, Repr

/-- A sleep in a wait (R199, R200). -/
structure Sleep where
  watch : Watch
  /-- The residency report of this sleep has been sent (R201). -/
  reported : Bool
  /-- The hart's share of the pipes is clock-gated (R200). -/
  clockGated : Bool
  /-- The location of the watched 32-byte word, and what the last check found. A write makes the next check due (R199). -/
  loc : Nat
  seen : Seen
  /-- Its report raises WAITREP, once the convoys in flight have retired (R201). -/
  raising : Bool
  deriving DecidableEq, Repr

/-- A scalar store that the hart has posted and that has not been performed (R100, R243). -/
structure PostedStore where
  /-- Location of the first byte in local memory. -/
  loc : Nat
  data : List Byte
  /-- Convoys issued before it; the loads among those still in flight come first (R163). -/
  order : Nat
  /-- The address that it was made for, and whether its translation has been dropped since: it is translated afresh when it
  is performed (R268). -/
  va : Word
  afresh : Bool
  deriving DecidableEq, Repr

/-- A store of a brim convoy that has committed and has not been performed (R153, R317). -/
structure LateralStore where
  /-- Location of the first byte in local memory. -/
  loc : Nat
  data : List Byte
  /-- Its source lay in a poisoned segment (R331). -/
  bad : Bool
  /-- The order number of its convoy, its member and its element group (R151). -/
  order : Nat
  part : Nat
  group : Nat
  /-- A vertical store, which is performed in program order among the vertical ones; else a lateral one, which is
  unordered (R153). -/
  vertical : Bool
  deriving DecidableEq, Repr

/-- A hart (R68), with what its agents hold for it. -/
structure Hart where
  /-- A farm's hart occupies the place (R187). Of a place that none occupies, the registers stay as the last hart left
  them until the next one starts there (R287). -/
  live : Bool
  id : HartId
  mode : Mode
  pc : Word
  x : Vector Word 32
  /-- Crown register storage: 256 element groups (R69, R70). -/
  v : Vector Group 256
  /-- Brim register storage in the home stack. -/
  brim : Vector Group 256
  /-- One poison bit per 64-byte segment of the brim storage (R315). -/
  brimPoison : Vector (BitVec 4) 256
  m : Vector Mask 24
  /-- The engine work that owns each mask (R135, R347). -/
  owner : Vector (Option Nat) 24
  count : Count
  elem : Elem
  /-- Progress indices of v0 to v31 and v32 to v63 (R80). -/
  progress : Vector (BitVec 6) 64
  /-- Tile storage: 64 rows of t0, then 64 rows of t1 (R213). -/
  tile : Vector Group 128
  /-- Poison of t0 and t1 (R231). -/
  tilePoison : Vector (Option Origin) 2
  queue : List MatrixEntry
  csr : Csrs
  window : Option Window
  /-- Crown convoys in flight, older first (R81). -/
  convoys : List Convoy
  /-- Brim convoys sent and not completed (R316). -/
  brimConvoys : List Convoy
  /-- NV, DZ, OF, UF, NX collected in the brim agent (R26). -/
  brimFlags : BitVec 5
  /-- Convoys issued so far (R317). -/
  issued : Nat
  /-- The order number of the latest convoy that wrote FFX (R317). -/
  ffxOrder : Nat
  /-- The group from which the next convoy issues, after `eret` or `uret` (R115). -/
  reissue : BitVec 6
  /-- Bytes of crown storage, brim storage and tile storage with a parity error (R389). -/
  badCrown : List Nat
  badBrim : List Nat
  badTile : List Nat
  /-- The instruction whose wait has not ended. -/
  wait : Option Instr
  sleep : Option Sleep
  /-- Withdrawn by `pause` (R116). -/
  paused : Bool
  halted : Bool
  stores : List PostedStore
  /-- Stores of its brim convoys that have committed and are not yet performed (R153, R317). -/
  laterals : List LateralStore
  /-- A walk that the hart waits for has ended; its access may walk (R262). -/
  walked : Bool
  /-- The address of a remote store that failed and is not yet reported by a release or fence (R399). -/
  failedStore : Option Word
  /-- Round number in the farm's barrier (R291). -/
  round : Nat
  rank : Nat
  /-- The number of its start, which it keeps when it resumes elsewhere. -/
  serial : Nat
  /-- Share index of its region (R287). -/
  share : Nat
  /-- The issue at which it was last chosen, and the issuing cycles in a row up to now in each of which it was ready and
  not chosen (R186). -/
  lastIssue : Nat
  passed : Nat
  deriving DecidableEq, Repr

/-! ## The core, the cluster and the walkers -/

/-- A leaf that a page sorter holds (R265). -/
structure TlbEntry where
  asid : BitVec 12
  /-- First virtual address of the page, and its size in bytes. -/
  base : Word
  size : Nat
  /-- The entry as the walk read it, and its physical address. -/
  leaf : Word
  ea : Nat
  deriving DecidableEq, Repr

/-- A pointer that a walker's walk cache holds (R265): the entry at `ea` read as `entry`. -/
structure WalkEntry where
  asid : BitVec 12
  ea : Nat
  entry : Word
  deriving DecidableEq, Repr

/-- A region of a scratchpad (R190, R286). -/
structure Region where
  farm : BitVec 6
  offset : Nat
  size : Nat
  /-- The owner tag; 0 matches nothing (R295, R348). -/
  tag : BitVec 48
  deriving DecidableEq, Repr

/-- What a core holds beside its harts, its scratchpad and its scalar data memory. -/
structure Core where
  wgate : Word
  wpower : Word
  wreport : Word
  /-- WSTAT.reports and WSTAT.powergates (R202). -/
  reports : BitVec 16
  powergates : BitVec 16
  cerr : Word
  cyc : Word
  powerGated : Bool
  /-- The page sorter, newest first (R265). -/
  tlb : List TlbEntry
  /-- Instruction-cache blocks by location (R192). -/
  icache : List (Nat × BitVec 256)
  regions : List Region
  deriving DecidableEq, Repr

/-- A barrier slot (R244, R252). -/
structure Slot where
  generation : BitVec 32
  arrived : BitVec 5
  declared : BitVec 5
  mismatch : Bool
  /-- Its storage holds a parity error not yet met. -/
  bad : Bool
  failed : Bool
  deriving DecidableEq, Repr

/-- A cluster (R242, R251). -/
structure Cluster where
  slots : Vector Slot 8
  /-- The cluster-placed farm that owns the slots. -/
  owner : Option (BitVec 6)
  /-- Pairs of cores whose link has failed, lower first. -/
  failedLinks : List (BitVec 2 × BitVec 2)
  /-- The first mismatch of the farm has been reported (R246). -/
  mismatchSent : Bool
  deriving DecidableEq, Repr

/-- A translation walker of the crown (R265, R276). -/
structure Walker where
  failed : Bool
  cache : List WalkEntry
  deriving DecidableEq, Repr

/-! ## The stack and its engines -/

/-- An entry of the activation-cache directory (R356). -/
structure DirEntry where
  stream : BitVec 16
  block : BitVec 16
  tile : BitVec 24
  asid : BitVec 12
  size : Nat
  fmt : BitVec 4
  step : BitVec 32
  replays : BitVec 8
  lastUse : Nat
  /-- Offset of its slot in the stack's part of the arena. -/
  slot : Nat
  deriving DecidableEq, Repr

/-- A memory stack (R314): its page sorter, directory and counters. -/
structure Stack where
  tlb : List TlbEntry
  dir : List DirEntry
  useClock : Nat
  /-- Probes, hits, misses, forced, stale, evictions (R364). -/
  counters : Vector Word 6
  /-- Access counters by region: crown, then brim; an unlisted region holds zeros (R336). -/
  access : List (Nat × BitVec 8 × BitVec 8)
  deferrals : BitVec 32
  ratioChanges : BitVec 16
  linkFailed : Bool
  deriving DecidableEq, Repr

/-- What engine work captured from the hart that started it (R339 step 4). -/
structure Issuer where
  hart : HartId
  /-- The number of the hart's start, which stays when it resumes elsewhere. -/
  serial : Nat
  farmid : Word
  ptbase : Word
  mode : Mode
  /-- The tag of R348. -/
  tag : BitVec 48
  deriving DecidableEq, Repr

/-- How far a piece of engine work has come with one of its parts. -/
inductive Progress where
  | todo
  | done
  deriving DecidableEq, Repr

/-- A copy (R343). `rows` gives for each row its destination, source and length. -/
structure Copy where
  rows : List (Word × Word × Nat)
  total : Nat
  aw : Word
  /-- In chunk mode: the mask, and the count and width in force at issue (R347). -/
  chunkMask : Option (BitVec 5 × Count × Elem)
  chunks : List Progress
  deriving DecidableEq, Repr

/-- A walk of the embedding walker (R351). -/
structure Walk where
  records : Word
  count : Nat
  aw : Word
  done : List Progress
  deriving DecidableEq, Repr

/-- A tile of a probe or fill (R358, R361). -/
structure TileJob where
  index : Nat
  key : Word
  input : Word
  output : Word
  deriving DecidableEq, Repr

/-- A probe or fill (R358, R361), with the tiles not yet decided and, for a probe, the hits not yet settled, each with
the stored output it read and whether that was read from bad data (R350, R363). -/
structure ActJob where
  fill : Bool
  md : BitVec 5
  tiles : List TileJob
  settling : List (TileJob × List Byte × Bool)
  step : BitVec 32
  thr : BitVec 32
  bytes : Nat
  fmt : BitVec 4
  cap : BitVec 8
  stream : Word
  aw : Word
  deriving DecidableEq, Repr

/-- What another rank has sent of a collective: a segment of its buffer, or its abort (R404). -/
structure RankData where
  rank : Nat
  op : BitVec 2
  bytes : Nat
  fmt : BitVec 4
  seg : Nat
  buffer : List Byte
  /-- The rank has aborted the collective with this cause. -/
  aborted : Option Byte
  deriving DecidableEq, Repr

/-- A collective at this rank (R404). -/
structure Coll where
  name : Nat
  group : BitVec 8
  ordinal : Nat
  op : BitVec 2
  addr : Word
  bytes : Nat
  fmt : BitVec 4
  /-- PTBASE and mode of the registration (R404). -/
  ptbase : Word
  mode : Mode
  aw : Word
  /-- Each segment of this rank's buffer as it was read and sent to the other ranks, each byte with a mark where it was
  read from bad data; `none` before that. -/
  own : List (Option (List (Byte × Bool)))
  /-- The segments whose output bytes have been performed. -/
  out : List Progress
  deriving DecidableEq, Repr

/-- The kinds of engine work. -/
inductive Job where
  | copy (c : Copy)
  | walk (w : Walk)
  | act (a : ActJob)
  | coll (c : Coll)
  deriving DecidableEq, Repr

/-- A piece of engine work in a queue or in an engine (R339). -/
structure Work where
  id : Nat
  stack : BitVec 4
  issuer : Issuer
  /-- It has begun (R349). -/
  begun : Bool
  /-- It aborts for this cause once the page of its arrival word is no longer being migrated (R338, R348). -/
  ending : Option Word
  job : Job
  deriving DecidableEq, Repr

/-- A registered name (R404). -/
structure Name where
  name : Nat
  addr : Word
  bytes : Nat
  fmt : BitVec 4
  group : BitVec 8
  ptbase : Word
  mode : Mode
  /-- Collectives issued on the name since its `cname`. -/
  ordinal : Nat
  deriving DecidableEq, Repr

/-! ## Faults, farms and the fabric -/

/-- Whose work a stall or a remote request belongs to. -/
inductive Owner where
  | hart (h : HartId)
  | brim (h : HartId)
  | engine (id : Nat) (part : Nat)
  | farm (f : BitVec 6)
  /-- The work has ended or gone; its request is still answered or fails (R399). -/
  | gone
  deriving DecidableEq, Repr

/-- Work stalled for replay, with its 64-byte record (R269, R270). -/
structure Stall where
  owner : Owner
  /-- The bytes of the record; the sequence number and byte 35 are filled when it is written. -/
  record : List Byte
  /-- The sequence number once written to the ring; `none` while held (R273). -/
  seq : Option Word
  subject : BitVec 32
  deriving DecidableEq, Repr

/-- A farm record as the controller keeps it (R278, R282). -/
structure FarmRecord where
  pc : Word
  args : Word
  link : Word
  completion : Word
  dep0 : Word
  dep1 : Word
  gen0 : BitVec 32
  gen1 : BitVec 32
  control : Word
  deriving DecidableEq, Repr

/-- Where a farm stands in its life (R284, R285, R290). -/
inductive FarmPhase where
  | waiting
  | runnable
  deriving DecidableEq, Repr

/-- A request sent to another package (R321, R397). -/
inductive RemoteKind where
  | read (len : Nat)
  /-- The bytes written; `none` stands for a byte of a 32-byte word that the write leaves alone. `bad` marks the data
  poisoned (R331, R350). -/
  | write (data : List (Option Byte)) (bad : Bool)
  | atomic (op : UaOp) (wide : Bool) (operand expected : Word)
  /-- Bytes replaced at their home where they are still `old`, as one action there; the answer is what they were
  (R207; assumption log 12). -/
  | update (old new : List Byte) (bad : Bool)
  deriving DecidableEq, Repr

/-- Where a remote request stands. -/
inductive RemoteStatus where
  | sent
  | answered (data : List Byte)
  | failed
  deriving DecidableEq, Repr

/-- A request over UALink, or over Spinel for a brim (R321, R397). -/
structure RemoteRequest where
  id : Nat
  owner : Owner
  /-- The HARTID or the stack that an EVENT of its failure names (R395). -/
  subject : BitVec 32
  pa : Nat
  /-- The virtual address it was made for. -/
  va : Word
  /-- The member of a convoy that made it, so that each vector access has requests of its own (R397); 0 for others. -/
  part : Nat
  kind : RemoteKind
  status : RemoteStatus
  deriving DecidableEq, Repr

/-- A slice that has been pre-empted (R295): its context, kept beside the bytes written to its slot. -/
structure Slice where
  core : BitVec 7
  stack : BitVec 4
  region : Option Region
  harts : List Hart
  /-- The slot: its physical address, and the slot in the stack's brim save area. -/
  slot : Nat
  slotSize : Nat
  brimSlot : Nat
  /-- The check of the internal blocks: their bytes as written. -/
  internal : List (Nat × Byte)
  /-- Queued engine work spilled with it (R349). -/
  works : List Work
  /-- Answers to atomics of its harts at other packages, not yet taken. -/
  answers : List RemoteRequest
  deriving DecidableEq, Repr

/-- A farm in the controller's table (R277 to R297). -/
structure Farm where
  entry : BitVec 6
  farmid : Word
  order : Nat
  record : FarmRecord
  block : List Byte
  ptbase : Word
  tvec : Word
  tdeleg : Word
  mode : Mode
  phase : FarmPhase
  /-- The priority the controller serves it by (R285, R293). -/
  priority : BitVec 2
  /-- Next strip of each home stack's run of strips; one entry when the mode is not AFFINE (R288). -/
  nexts : List Nat
  started : Nat
  retired : Nat
  /-- Barrier generation and arrivals of the round (R291). -/
  barrier : Nat
  arrived : Nat
  slices : List Slice
  /-- CTXID of a RESIDENT or cluster-placed farm once started (R295). -/
  ctxid : Option (BitVec 48)
  /-- Region offset chosen for the farm (R286). -/
  offset : Option Nat
  /-- The slots of its cluster while it stands pre-empted, and whether a mismatch of it has been reported (R242). -/
  savedSlots : Option (Vector Slot 8 × Bool)
  /-- A slice of it has failed: the cause code of R415 and the subject (R300). -/
  failing : Option (BitVec 12 × BitVec 32)
  deriving DecidableEq, Repr

/-- A launch handed over and not yet judged (R281). -/
structure Launch where
  /-- The launching hart and the register that receives the outcome; `none` for a LAUNCH message. -/
  hart : Option (HartId × BitVec 5)
  tag : BitVec 32
  /-- The record and the block; `none` when they could not be read (R280). -/
  record : Option (FarmRecord × List Byte)
  ptbase : Word
  tvec : Word
  tdeleg : Word
  mode : Mode
  deriving DecidableEq, Repr

/-- A hart that the controller has placed and that has not started (R286). -/
structure Starting where
  farm : BitVec 6
  hart : HartId
  rank : Nat
  share : Nat
  /-- Its vs (R287). -/
  vs : Word
  deriving DecidableEq, Repr

/-- A slice being spilled (R295, steps 1 to 4). -/
structure Spill where
  farm : BitVec 6
  core : BitVec 7
  /-- Harts of the slice, and the places of its save slots. -/
  harts : Nat
  slot : Nat
  slotSize : Nat
  brimSlot : Nat
  deriving DecidableEq, Repr

/-- The farm controller. -/
structure Controller where
  farms : List Farm
  launches : List Launch
  starting : List Starting
  spilling : List Spill
  accepted : Nat
  nextTag : Nat
  /-- The number of the next hart start. -/
  nextStart : Nat
  /-- Victims skipped and counted, for a farm that has not been served since: that farm, the victim, its core (R298). -/
  skipped : List (BitVec 6 × BitVec 6 × BitVec 7)
  deriving DecidableEq, Repr

/-- A page being migrated (R338). -/
structure Migration where
  hart : HartId
  /-- The address that `pmig` named. -/
  va : Word
  /-- First virtual address of the page, and its size. -/
  base : Word
  size : Nat
  ea : Nat
  leaf : Word
  target : Word
  deriving DecidableEq, Repr

/-- The package CSRs that hold a value of their own (R267, R271, R298, R337, R364, R382, R401). -/
structure PackageCsrs where
  fbbase : Word
  fbsize : Word
  fbhead : Word
  fbtail : Word
  fbovf : Bool
  pkgid : Word
  fstarve : Word
  spbase : Word
  spsize : Word
  refusals : BitVec 16
  preemptions : BitVec 32
  acsel : Word
  bsave : Word
  stabase : Word
  stalimit : Word
  stcsel : Word
  pwrcap : Word
  /-- PWRSTAT: package power, the hottest junction, throttle entries and what is withheld (R382). -/
  watts : BitVec 12
  temperature : BitVec 8
  throttles : BitVec 12
  withheldCrown : BitVec 8
  withheldBrim : BitVec 8
  fabcoord : Word
  podmap : Word
  cgbase : Word
  ctimeout : Word
  /-- LNKSTAT: Spinel ports up, UALink ports at x2, UALink ports up (R401). -/
  spinelUp : BitVec 8
  ualinkX2 : BitVec 18
  ualinkUp : BitVec 18
  deriving DecidableEq, Repr

/-! ## The platform and the control node -/

/-- The boot sequence of R384. -/
inductive Boot where
  /-- No power, or package reset before power good. -/
  | off
  /-- Step 1 done: the root monitor trains the Beryl port. -/
  | training
  /-- Step 3: MGMT operation 5 fills the firmware region. -/
  | firmware
  /-- Step 5: the untrusted firmware trains the links and zeroes memory. -/
  | links
  /-- Step 6: waits for its identity. -/
  | identity
  /-- Step 7 done. -/
  | ready
  /-- A verification failed at this step. -/
  | failed (step : Nat)
  /-- Held in package reset by a thermal trip (R379). -/
  | tripped
  deriving DecidableEq, Repr

/-- A message that the device sends (R393). -/
inductive Message where
  | mresp (tag : BitVec 32) (status : BitVec 32) (data : List Byte)
  | accept (tag : BitVec 32) (value : Word)
  | event (kind : BitVec 16) (subject : BitVec 32) (values : List Word)
  | attestReply (tag : BitVec 32) (busy : Bool) (data : List Byte)
  | identify (tag : BitVec 32) (word : BitVec 32)
  | csrValue (tag : BitVec 32) (value : Word)
  /-- An `icsync` of this package that acts on every package of its pod (R168). -/
  | podIcsync
  | uaResponse (tag : Nat) (error : Bool) (data : List Byte)
  | spinelResponse (tag : Nat) (error : Bool) (data : List Byte)
  /-- A segment of this rank's part in a collective, to the other ranks that a route leads to (R400, R404). -/
  | collectivePart (group : BitVec 8) (name ordinal rank : Nat) (op : BitVec 2) (bytes : Nat) (fmt : BitVec 4) (seg : Nat)
      (buffer : List Byte) (dests : List Nat)
  /-- This rank aborts a matched collective, to the other ranks that a route leads to (R400, R404). -/
  | collectiveAbort (group : BitVec 8) (name ordinal rank : Nat) (cause : Byte) (dests : List Nat)
  deriving DecidableEq, Repr

/-- The platform: boot, measurements, attestation and the Beryl port. -/
structure Platform where
  boot : Boot
  measurements : Vector (BitVec 512) 4
  /-- Attestation requests waiting, oldest first; the first is being signed (R388). -/
  attests : List (BitVec 32 × List Byte)
  /-- Extensions of register 3 that wait for a signing (R388). -/
  extends3 : List (List Byte)
  portUp : Bool
  /-- Events held while the port is down, and the count lost (R395). -/
  held : List Message
  lost : Nat
  /-- Everything the device has sent, oldest first. -/
  sent : List Message
  /-- Lanes lost at each UALink port (R396). -/
  lanesLost : Vector (BitVec 4) 18
  /-- Firmware region bytes written (R385). -/
  firmware : List Host.Cell
  /-- What the last read of memory by the untrusted firmware returned through the address filter (R385). -/
  filtered : List Byte
  deriving DecidableEq, Repr

/-! ## What moves next -/

/-- An upset of a storage element, from outside the machine (R211, R389). -/
inductive Upset where
  | crownByte (h : HartId) (byte : Nat)
  | brimByte (h : HartId) (byte : Nat)
  | tileByte (h : HartId) (byte : Nat)
  | scalarRegister (h : HartId)
  /-- A protected unit of local memory: a 32-byte word of DRAM, an 8-byte unit elsewhere. -/
  | memory (loc : Nat)
  /-- A 32-byte word of DRAM as its stack cache holds it (R320). -/
  | stackCache (loc : Nat)
  | slot (cluster : BitVec 5) (slot : BitVec 3)
  | staging (id chunk : Nat)
  /-- An entry of a core's page sorter, of a brim page sorter or of a walk cache, counted from the newest (R276). -/
  | pageSorter (core : BitVec 7) (entry : Nat)
  | brimSorter (st : BitVec 4) (entry : Nat)
  | walkCache (w : BitVec 5) (entry : Nat)
  /-- A wrong bit that no check covers, from a lane, a brim lane or the matrix engine's datapath: a bit of crown register,
  brim register or tile storage changes unreported (R390). -/
  | lane (h : HartId) (byte : Nat) (bit : Fin 8)
  | brimLane (h : HartId) (byte : Nat) (bit : Fin 8)
  | matrixPath (h : HartId) (byte : Nat) (bit : Fin 8)
  /-- A bit changed at a hop boundary, which travels on under a valid check to that location (R390). -/
  | hop (loc : Nat) (bit : Fin 8)
  deriving DecidableEq, Repr

/-- One entry of the agenda: which agent moves next (assumption log 3). -/
inductive Move where
  /-- An event of the opcode table happens. -/
  | event (i : Instr)
  /-- The hart of that place issues next. -/
  | turn (h : HartId)
  /-- From now on waits are left open (`true`) or ended at once (`false`). -/
  | lag (on : Bool)
  /-- A soft error strikes. -/
  | upset (u : Upset)
  /-- A cache drops its oldest entry: a core's page sorter, a stack's, or a core's instruction cache. -/
  | dropTlb (core : BitVec 7)
  | dropStackTlb (st : BitVec 4)
  | dropBlock (core : BitVec 7)
  /-- The power controller takes a reading of package power and of the hottest junction (R382). -/
  | sensors
  /-- The oldest, or a later, store that waits in the brim agent of a hart is performed (R153). -/
  | lateral (h : HartId) (n : Nat)
  /-- An `icsync` of another package of the pod acts on this package (R168). -/
  | podIcsync
  /-- A link of the in-package torus fails: the port of a stack's router in a direction (R400). -/
  | torusLink (st : BitVec 4) (dir : BitVec 2)
  /-- The untrusted firmware attempts a read of so many bytes at a physical address (R385). -/
  | firmwareRead (pa n : Nat)
  /-- It attempts a read of so many bytes of the firmware region, or a write there (R385). -/
  | regionRead (off n : Nat)
  | regionWrite (off : Nat) (data : List Byte)
  /-- It attempts a read of a package CSR, or a write (R385). -/
  | firmwareCsrRead (num : Word)
  | firmwareCsrWrite (num v : Word)
  /-- A message comes in at the Beryl port as its bytes (R392). -/
  | arrive (bytes : List Byte)
  deriving DecidableEq, Repr

/-- A message of the control node that waits to be performed (R393), and one of an MGMT operation code of 8 or above. -/
inductive NodeMessage where
  | mwrite (tag : BitVec 32) (pa : Word) (len : BitVec 32) (data : List Byte)
  | mread (tag : BitVec 32) (pa : Word) (len : BitVec 32)
  | launch (tag : BitVec 32) (record ptbase tvec tdeleg : Word) (mode : Byte)
  | signal (tag : BitVec 32) (pa : Word) (bytes : BitVec 32)
  | replay (tag : BitVec 32) (n : Word)
  | attest (tag : BitVec 32) (nonce : List Byte)
  | identify (tag : BitVec 32)
  | reset (tag : BitVec 32)
  | csrWrite (tag : BitVec 32) (num v : Word)
  | csrRead (tag : BitVec 32) (num : Word)
  | extend (tag : BitVec 32) (digest : List Byte)
  | firmwareWrite (tag : BitVec 32) (off len : Word) (data : List Byte)
  | setIdentity (tag : BitVec 32) (pkg : BitVec 16) (coord : Word)
  | endFarm (tag : BitVec 32) (farmid : Word)
  | malformed (tag : BitVec 32)
  | noOperation (tag : BitVec 32) (value : Word)
  deriving DecidableEq, Repr

/-- The package. -/
structure State where
  /-- The hart that issues now. -/
  hart : Hart
  /-- The other occupied places, ascending. -/
  parked : List Hart
  cores : Vector Core 128
  clusters : Vector Cluster 32
  walkers : Vector Walker 32
  stack : Vector Stack 16
  /-- Local memory by location: DRAM cells by homed-view address, scratchpads by global aperture address, then the
  scalar data memories (R191, R258, R259). -/
  mem : List Host.Cell
  /-- Protected units that hold an uncorrectable error (R211, R330), by location of their first byte. -/
  badUnits : List Nat
  /-- Of the words of DRAM among them, those whose error struck the stack cache (R320, R414). -/
  badCached : List Nat
  /-- 32-byte words of DRAM marked poisoned (R331), by location of their first byte. -/
  poisoned : List Nat
  /-- The 32-byte word of DRAM whose read delivers nothing in the step in hand (R330, R414). -/
  failing : Option Nat
  /-- Copy chunks whose staging buffer holds a parity error (R350). -/
  badStaging : List (Nat × Nat)
  /-- The 32-byte words of memory that sleeping harts have watched, each with the writes that it has seen (R199). -/
  watched : List (Nat × Nat)
  stalls : List Stall
  works : List Work
  nextWork : Nat
  names : List Name
  /-- Parts of collectives received from other ranks (R404). -/
  ranks : List (BitVec 8 × Nat × Nat × RankData)
  remote : List RemoteRequest
  nextRemote : Nat
  /-- Failed links of the in-package torus: a stack's router, and the direction +column, −column, +row or −row (R400). -/
  torusDown : List (BitVec 4 × BitVec 2)
  migrations : List Migration
  ctl : Controller
  pkg : PackageCsrs
  plat : Platform
  /-- Messages of the control node that wait behind the first of them, which cannot be performed yet (R268, R394). -/
  inbox : List NodeMessage
  /-- The model's own: the moves to come, the wait policy, the issue count and the count of free values drawn. -/
  agenda : List Move
  lag : Bool
  issueClock : Nat
  draws : Nat
  deriving DecidableEq, Repr

/-! ## Reset -/

/-- The hart CSRs at reset (R68 and the CSR maps). -/
def Csrs.reset : Csrs where
  fpctl := 0
  ffx := 512
  vxb := 0
  cvret := 0
  lcnt := Vector.replicate 2 0
  lstart := Vector.replicate 2 0
  lend := Vector.replicate 2 0
  mshp := 0
  mskip := 0
  bsum := 0
  bwin := 0
  bseq := 0
  cpaw := 0
  cpopt := 0
  cprows := 0
  cpstride := 0
  collopt := 1
  ststep := 0
  stthr := 0
  stsize := 0x00100100
  stmaxrep := 1
  staw := 0
  ststream := 0
  stprobes := 0
  sthits := 0
  stmisses := 0
  stforced := 0
  ststale := 0
  utvec := 0
  uepc := 0
  ucause := 0
  utgrp := 0
  ufei := 0xFFFFFFFF
  utval := 0
  farmid := 0
  strips := 0
  status := 1
  tvec := 0
  tepc := 0
  tcause := 0
  tval := 0
  tgrp := 0
  fei := 0xFFFFFFFF
  tdeleg := 0
  csa := 0
  ptbase := 0
  ctxid := 0

/-- A hart's place at reset (R68); its pc has no reset value in the spec and is 0 here (assumption log 1). -/
def Hart.reset (id : HartId) : Hart where
  live := false
  id := id
  mode := .supervisor
  pc := 0
  x := Vector.replicate 32 0
  v := Vector.replicate 256 0
  brim := Vector.replicate 256 0
  brimPoison := Vector.replicate 256 0
  m := Vector.replicate 24 0
  owner := Vector.replicate 24 none
  count := .c32
  elem := .fp32
  progress := Vector.replicate 64 8
  tile := Vector.replicate 128 0
  tilePoison := Vector.replicate 2 none
  queue := []
  csr := Csrs.reset
  window := none
  convoys := []
  brimConvoys := []
  brimFlags := 0
  issued := 0
  ffxOrder := 0
  reissue := 0
  badCrown := []
  badBrim := []
  badTile := []
  wait := none
  sleep := none
  paused := false
  halted := false
  stores := []
  laterals := []
  walked := false
  failedStore := none
  round := 0
  rank := 0
  serial := 0
  share := 0
  lastIssue := 0
  passed := 0

/-- A core at reset (R202, R209). -/
def Core.reset : Core where
  wgate := 256
  wpower := 250000
  wreport := 2500000000
  reports := 0
  powergates := 0
  cerr := 0
  cyc := 0
  powerGated := false
  tlb := []
  icache := []
  regions := []

/-- A barrier slot at farm start, and at reset (R244; assumption log 1). -/
def Slot.reset : Slot where
  generation := 0
  arrived := 0
  declared := 0
  mismatch := false
  bad := false
  failed := false

/-- A cluster at reset. -/
def Cluster.reset : Cluster where
  slots := Vector.replicate 8 Slot.reset
  owner := none
  failedLinks := []
  mismatchSent := false

/-- A stack at reset (R336, R337, R364). -/
def Stack.reset : Stack where
  tlb := []
  dir := []
  useClock := 0
  counters := Vector.replicate 6 0
  access := []
  deferrals := 0
  ratioChanges := 0
  linkFailed := false

/-- The package CSRs at reset (R267, R271, R298, R337, R364, R382, R401). -/
def PackageCsrs.reset : PackageCsrs where
  fbbase := 0
  fbsize := 0
  fbhead := 0
  fbtail := 0
  fbovf := false
  pkgid := 0
  fstarve := 1250000
  spbase := 0
  spsize := 0
  refusals := 0
  preemptions := 0
  acsel := 0
  bsave := 0
  stabase := 0
  stalimit := 0
  stcsel := 0
  pwrcap := 3200
  watts := 0
  temperature := 0
  throttles := 0
  withheldCrown := 0
  withheldBrim := 0
  fabcoord := 0
  podmap := 0
  cgbase := 0
  ctimeout := 100000
  spinelUp := 0
  ualinkX2 := 0
  ualinkUp := 0

/-- The farm controller at reset: no farm (R383). -/
def Controller.reset : Controller where
  farms := []
  launches := []
  starting := []
  spilling := []
  accepted := 0
  nextTag := 1
  nextStart := 1
  skipped := []

/-- The platform at package reset, before power good (R378, R383, R387). -/
def Platform.reset : Platform where
  boot := .off
  measurements := Vector.replicate 4 0
  attests := []
  extends3 := []
  portUp := true
  held := []
  lost := 0
  sent := []
  lanesLost := Vector.replicate 18 0
  firmware := []
  filtered := []

/-- The package right after package reset: no hart runs, memory lists nothing, the boot sequence has not begun
(R68, R383, R384; assumption log 5 says how a program comes to run). -/
def State.reset : State where
  hart := Hart.reset 0
  parked := []
  cores := Vector.replicate 128 Core.reset
  clusters := Vector.replicate 32 Cluster.reset
  walkers := Vector.replicate 32 ⟨false, []⟩
  stack := Vector.replicate 16 Stack.reset
  mem := []
  badUnits := []
  badCached := []
  poisoned := []
  failing := none
  badStaging := []
  watched := []
  stalls := []
  works := []
  nextWork := 0
  names := []
  ranks := []
  remote := []
  nextRemote := 0
  torusDown := []
  migrations := []
  ctl := Controller.reset
  pkg := PackageCsrs.reset
  plat := Platform.reset
  inbox := []
  agenda := []
  lag := false
  issueClock := 0
  draws := 0

end Sys2Proof.Machine
end

