-- ==== Sys2Proof/Machine/Float.lean ====
section
/-! DEFINITION. Float.lean: the floating formats, exact values, the one rounding and the conversions (R18 to R35).

A value is NaN, an infinity, or a sign with a natural mantissa and an integer exponent, so every sum, product and fused
operation is exact until `roundTo` rounds it once. A quotient or root is carried with guard bits and a sticky lowest bit,
which round as the exact value does. -/

namespace Sys2Proof.Machine

/-! ## Formats (R18) -/

/-- Bits of a value of a format. -/
def Elem.width : Elem → Nat
  | .fp64 => 64
  | .fp32 => 32
  | .fp16 => 16
  | .bf16 => 16
  | .e4m3 => 8
  | .e5m2 => 8
  | .e2m1 => 4

/-- Mantissa bits. -/
def Elem.mant : Elem → Nat
  | .fp64 => 52
  | .fp32 => 23
  | .fp16 => 10
  | .bf16 => 7
  | .e4m3 => 3
  | .e5m2 => 2
  | .e2m1 => 1

/-- The exponent bias. -/
def Elem.bias : Elem → Nat
  | .fp64 => 1023
  | .fp32 => 127
  | .fp16 => 15
  | .bf16 => 127
  | .e4m3 => 7
  | .e5m2 => 15
  | .e2m1 => 1

/-- Exponent bits. -/
def Elem.expBits (f : Elem) : Nat := f.width - 1 - f.mant

/-- The format has infinities: all but E4M3 and E2M1. -/
def Elem.hasInf : Elem → Bool
  | .e4m3 => false
  | .e2m1 => false
  | _ => true

/-- The bits of the largest finite magnitude. -/
def Elem.maxBits : Elem → Nat
  | .e4m3 => 0x7E
  | .e2m1 => 0x7
  | f => (2 ^ f.expBits - 1) * 2 ^ f.mant - 1

/-- The bits of +∞ in a format that has it. -/
def Elem.infBits (f : Elem) : Nat := (2 ^ f.expBits - 1) * 2 ^ f.mant

/-- The canonical NaN (R27); in E2M1, which has none, +6. -/
def Elem.nanBits : Elem → Nat
  | .e4m3 => 0x7F
  | .e2m1 => 0x7
  | f => f.infBits + 2 ^ (f.mant - 1)

/-- The smallest normal exponent. -/
def Elem.emin (f : Elem) : Int := 1 - (f.bias : Int)

/-- The sign bit of a value of a format. -/
def Elem.signBit (f : Elem) : Nat := 2 ^ (f.width - 1)

/-! ## Values -/

/-- The value of a floating number. A zero has mantissa 0. -/
inductive FVal where
  | nan
  | inf (neg : Bool)
  /-- (−1)^neg × m × 2^e. -/
  | num (neg : Bool) (m : Nat) (e : Int)
  deriving DecidableEq, Repr

/-- Flags of an operation, placed as FPCTL[9:5] holds them: NV, DZ, OF, UF, NX from the top (R23). -/
abbrev Flags := BitVec 5

/-- No flag. -/
def noFlags : Flags := 0
/-- Invalid. -/
def flagNV : Flags := 16
/-- Division by zero. -/
def flagDZ : Flags := 8
/-- Overflow. -/
def flagOF : Flags := 4
/-- Underflow. -/
def flagUF : Flags := 2
/-- Inexact. -/
def flagNX : Flags := 1

/-- The value of the bits of a format (R18). -/
def decodeF (f : Elem) (bits : Nat) : FVal :=
  let neg := decide (bits / f.signBit % 2 = 1)
  let e := bits / 2 ^ f.mant % 2 ^ f.expBits
  let m := bits % 2 ^ f.mant
  let special : Option FVal :=
    match f with
    | .e4m3 => if e = 15 ∧ m = 7 then some .nan else none
    | .e2m1 => none
    | _ => if e = 2 ^ f.expBits - 1 then some (if m = 0 then .inf neg else .nan) else none
  match special with
  | some v => v
  | none =>
    if e = 0 then .num neg m (f.emin - f.mant)
    else .num neg (2 ^ f.mant + m) ((e : Int) - f.bias - f.mant)

/-- A sign, applied to the bits of a magnitude. -/
def withSign (f : Elem) (neg : Bool) (bits : Nat) : Nat := if neg then f.signBit + bits else bits

/-- A natural magnitude m × 2^e rounded to a multiple of 2^q by a rounding mode: the multiple, and whether it is exact
(R24). -/
def roundAt (neg : Bool) (rm : Nat) (m : Nat) (e q : Int) : Nat × Bool :=
  if q ≤ e then (m * 2 ^ (e - q).toNat, true)
  else
    let sh := (q - e).toNat
    let lo := m / 2 ^ sh
    let rem := m % 2 ^ sh
    let half := 2 ^ (sh - 1)
    let up :=
      match rm with
      | 0 => decide (half < rem) || (decide (rem = half) && decide (lo % 2 = 1))
      | 1 => false
      | 2 => neg && decide (rem ≠ 0)
      | 3 => !neg && decide (rem ≠ 0)
      | _ => decide (half ≤ rem)
    (if up then lo + 1 else lo, decide (rem = 0))

/-- m × 2^e is above n × 2^d. -/
def magGt (m : Nat) (e : Int) (n : Nat) (d : Int) : Bool :=
  if e ≤ d then decide (m > n * 2 ^ (d - e).toNat) else decide (m * 2 ^ (e - d).toNat > n)

/-- What an overflow delivers (R31). -/
def overflowBits (f : Elem) (rm : Nat) (sat neg : Bool) : Nat :=
  let toMax := sat || (match rm with
    | 1 => true
    | 2 => !neg
    | 3 => neg
    | _ => false)
  match f with
  | .e2m1 => withSign f neg f.maxBits
  | .e4m3 => if toMax then withSign f neg f.maxBits else f.nanBits
  | _ => if toMax then withSign f neg f.maxBits else withSign f neg f.infBits

/-- An exact magnitude rounded once to a format, with its flags (R25, R28, R31). `sat` holds for a conversion under
FPCTL.SAT. -/
def roundTo (f : Elem) (rm : Nat) (sat neg : Bool) (m : Nat) (e : Int) : Nat × Flags :=
  if m = 0 then (withSign f neg 0, noFlags)
  else
    let top := (m.log2 : Int) + e
    let unb := roundAt neg rm m e (top - f.mant)
    let maxV := f.maxBits
    let maxM := match decodeF f maxV with
      | .num _ mm me => (mm, me)
      | _ => (0, 0)
    if magGt unb.1 (top - f.mant) maxM.1 maxM.2 then (overflowBits f rm sat neg, flagOF ||| flagNX)
    else
      let q := max top f.emin - f.mant
      let r := roundAt neg rm m e q
      let bits :=
        if top < f.emin then r.1
        else ((q + f.mant + f.bias).toNat) * 2 ^ f.mant + r.1 - 2 ^ f.mant
      let tiny := magGt 1 f.emin unb.1 (top - f.mant)
      let flags := (if r.2 then noFlags else flagNX) ||| (if !r.2 && tiny then flagUF else noFlags)
      (withSign f neg bits, flags)

/-- A value delivered in a format by an arithmetic operation that raised `fl` (R27, R28). An exact infinity in a format
without one is NaN in E4M3 and ±6 in E2M1. -/
def deliver (f : Elem) (rm : Nat) (fl : Flags) (v : FVal) : Nat × Flags :=
  match v with
  | .nan => (f.nanBits, fl)
  | .inf neg =>
    match f with
    | .e4m3 => (f.nanBits, fl)
    | .e2m1 => (withSign f neg f.maxBits, fl)
    | _ => (withSign f neg f.infBits, fl)
  | .num neg m e =>
    let r := roundTo f rm false neg m e
    (r.1, r.2 ||| fl)

/-! ## Exact operations -/

/-- The value with its sign changed. -/
def FVal.neg : FVal → FVal
  | .nan => .nan
  | .inf s => .inf !s
  | .num s m e => .num (!s) m e

/-- The value's magnitude. -/
def FVal.abs : FVal → FVal
  | .nan => .nan
  | .inf _ => .inf false
  | .num _ m e => .num false m e

/-- A signed mantissa. -/
def signed (neg : Bool) (m : Nat) : Int := if neg then -(m : Int) else m

/-- The exact sum, and NV for ∞ − ∞; the sign of an exact zero by R28. -/
def addF (rm : Nat) (a b : FVal) : FVal × Flags :=
  match a, b with
  | .nan, _ => (.nan, noFlags)
  | _, .nan => (.nan, noFlags)
  | .inf s, .inf t => if s = t then (.inf s, noFlags) else (.nan, flagNV)
  | .inf s, _ => (.inf s, noFlags)
  | _, .inf t => (.inf t, noFlags)
  | .num s m e, .num t n d =>
    let q := min e d
    let x := signed s m * 2 ^ (e - q).toNat + signed t n * 2 ^ (d - q).toNat
    if x = 0 then
      (.num (if m = 0 ∧ n = 0 ∧ s = t then s else decide (rm = 2)) 0 q, noFlags)
    else (.num (decide (x < 0)) x.natAbs q, noFlags)

/-- The exact product, and NV for 0 × ∞. -/
def mulF (a b : FVal) : FVal × Flags :=
  match a, b with
  | .nan, _ => (.nan, noFlags)
  | _, .nan => (.nan, noFlags)
  | .inf s, .inf t => (.inf (s != t), noFlags)
  | .inf s, .num t n _ => if n = 0 then (.nan, flagNV) else (.inf (s != t), noFlags)
  | .num s m _, .inf t => if m = 0 then (.nan, flagNV) else (.inf (s != t), noFlags)
  | .num s m e, .num t n d => (.num (s != t) (m * n) (e + d), noFlags)

/-- The product and the sum formed exactly (R30): 0 × ∞ is invalid even when the addend is a NaN. -/
def fmaF (rm : Nat) (a b c : FVal) : FVal × Flags :=
  let p := mulF a b
  if p.2 ≠ noFlags then (.nan, flagNV) else addF rm p.1 c

/-- The quotient, with enough guard bits for a format (R28). -/
def divF (f : Elem) (a b : FVal) : FVal × Flags :=
  match a, b with
  | .nan, _ => (.nan, noFlags)
  | _, .nan => (.nan, noFlags)
  | .inf _, .inf _ => (.nan, flagNV)
  | .inf s, .num t _ _ => (.inf (s != t), noFlags)
  | .num s _ _, .inf t => (.num (s != t) 0 0, noFlags)
  | .num s m e, .num t n d =>
    if n = 0 then (if m = 0 then (.nan, flagNV) else (.inf (s != t), flagDZ))
    else
      let k := f.mant + 4 + n.log2
      let q := m * 2 ^ k / n
      let sticky := if m * 2 ^ k % n = 0 then 0 else 1
      (.num (s != t) (2 * q + sticky) (e - d - k - 1), noFlags)

/-- The integer square root, bit by bit from bit `k`. -/
def isqrtFrom (n : Nat) : Nat → Nat → Nat
  | 0, r => if (r + 1) * (r + 1) ≤ n then r + 1 else r
  | k + 1, r =>
    let t := r + 2 ^ (k + 1)
    isqrtFrom n k (if t * t ≤ n then t else r)

/-- The integer square root. -/
def isqrt (n : Nat) : Nat := isqrtFrom n (n.log2 / 2 + 1) 0

/-- The square root, with enough guard bits for a format (R28). -/
def sqrtF (f : Elem) (a : FVal) : FVal × Flags :=
  match a with
  | .nan => (.nan, noFlags)
  | .inf false => (.inf false, noFlags)
  | .inf true => (.nan, flagNV)
  | .num neg m e =>
    if m = 0 then (.num neg 0 e, noFlags)
    else if neg then (.nan, flagNV)
    else
      let k := 2 * (f.mant + 4)
      let sh := k + (e - k).toNat % 2 + (if (e - k) < 0 ∧ (k - e).toNat % 2 = 1 then 1 else 0)
      let mm := m * 2 ^ sh
      let r := isqrt mm
      let sticky := if r * r = mm then 0 else 1
      (.num false (2 * r + sticky) ((e - sh) / 2 - 1), noFlags)

/-! ## Order -/

/-- a < b of two numbers that are not NaN; −0 equals +0. -/
def ltF (a b : FVal) : Bool :=
  match a, b with
  | .nan, _ => false
  | _, .nan => false
  | .inf s, .inf t => s && !t
  | .inf s, _ => s
  | _, .inf t => !t
  | .num s m e, .num t n d =>
    let q := min e d
    decide (signed s m * 2 ^ (e - q).toNat < signed t n * 2 ^ (d - q).toNat)

/-- A value is NaN. -/
def FVal.isNan : FVal → Bool
  | .nan => true
  | _ => false

/-- a == b (R109): −0 equals +0, and a NaN equals nothing. -/
def eqF (a b : FVal) : Bool := !a.isNan && !b.isNan && !ltF a b && !ltF b a

/-- The sign of a value. -/
def FVal.isNeg : FVal → Bool
  | .nan => false
  | .inf s => s
  | .num s _ _ => s

/-- The lesser (`mx` false) or greater of two values by R29: −0 is below +0, and a NaN gives way. -/
def minmaxF (mx : Bool) (a b : FVal) : FVal :=
  if a.isNan then b
  else if b.isNan then a
  else
    let less := ltF a b || (eqF a b && a.isNeg && !b.isNeg)
    if less != mx then a else b

/-! ## Operations on the bits of a format -/

/-- The sum of two values of a format (R28). -/
def fAdd (f : Elem) (rm : Nat) (a b : Nat) : Nat × Flags :=
  let r := addF rm (decodeF f a) (decodeF f b)
  deliver f rm r.2 r.1

/-- The difference. -/
def fSub (f : Elem) (rm : Nat) (a b : Nat) : Nat × Flags :=
  let r := addF rm (decodeF f a) (decodeF f b).neg
  deliver f rm r.2 r.1

/-- The product. -/
def fMul (f : Elem) (rm : Nat) (a b : Nat) : Nat × Flags :=
  let r := mulF (decodeF f a) (decodeF f b)
  deliver f rm r.2 r.1

/-- The quotient. -/
def fDiv (f : Elem) (rm : Nat) (a b : Nat) : Nat × Flags :=
  let r := divF f (decodeF f a) (decodeF f b)
  deliver f rm r.2 r.1

/-- The square root. -/
def fSqrt (f : Elem) (rm : Nat) (a : Nat) : Nat × Flags :=
  let r := sqrtF f (decodeF f a)
  deliver f rm r.2 r.1

/-- ±(a × b) ± c, rounded once (R30, R110). -/
def fFma (f : Elem) (rm : Nat) (negP negC : Bool) (a b c : Nat) : Nat × Flags :=
  let x := decodeF f a
  let y := decodeF f c
  let r := fmaF rm (if negP then x.neg else x) (decodeF f b) (if negC then y.neg else y)
  deliver f rm r.2 r.1

/-- The lesser or greater by R29; sets no flag. -/
def fMinmax (f : Elem) (mx : Bool) (a b : Nat) : Nat × Flags :=
  deliver f 0 noFlags (minmaxF mx (decodeF f a) (decodeF f b))

/-- Sign injection (R27, R109): `k` is 0 for b's sign, 1 for its inverse, 2 for the exclusive-OR. -/
def fSgnj (f : Elem) (k : Nat) (a b : Nat) : Nat :=
  let sa := a / f.signBit % 2
  let sb := b / f.signBit % 2
  let s := match k with
    | 0 => sb
    | 1 => 1 - sb
    | _ => (sa + sb) % 2
  a % f.signBit + s * f.signBit

/-- The class bit of a value (R109). -/
def fClass (f : Elem) (a : Nat) : Nat :=
  match decodeF f a with
  | .nan => 256
  | .inf true => 1
  | .inf false => 128
  | .num neg m _ =>
    if m = 0 then (if neg then 8 else 16)
    else if m < 2 ^ f.mant then (if neg then 4 else 32)
    else if neg then 2 else 64

/-! ## Conversions (R32 to R35) -/

/-- A floating value converted to a floating format (R32). -/
def toFloat (f : Elem) (rm : Nat) (sat : Bool) (v : FVal) : Nat × Flags :=
  match v with
  | .nan => (f.nanBits, if f = .e2m1 then flagNV else noFlags)
  | .inf neg =>
    match f with
    | .e4m3 => if sat then (withSign f neg f.maxBits, noFlags) else (f.nanBits, flagNV)
    | .e2m1 => (withSign f neg f.maxBits, if sat then noFlags else flagNV)
    | _ => (withSign f neg f.infBits, noFlags)
  | .num neg m e => roundTo f rm sat neg m e

/-- The value rounded to an integer by a rounding mode, and whether it was one. -/
def integral (rm : Nat) (neg : Bool) (m : Nat) (e : Int) : Int × Bool :=
  let r := roundAt neg rm m e 0
  (signed neg r.1, r.2)

/-- A floating value converted to an integer format of `w` bits (R33). -/
def toInteger (w : Nat) (isSigned : Bool) (rm : Nat) (v : FVal) : Nat × Flags :=
  let lo : Int := if isSigned then -(2 ^ (w - 1) : Int) else 0
  let hi : Int := if isSigned then 2 ^ (w - 1) - 1 else 2 ^ w - 1
  let put (i : Int) : Nat := (i % (2 ^ w : Int)).toNat
  match v with
  | .nan => (0, flagNV)
  | .inf neg => (put (if neg then lo else hi), flagNV)
  | .num neg m e =>
    let r := integral rm neg m e
    if r.1 < lo then (put lo, flagNV)
    else if hi < r.1 then (put hi, flagNV)
    else (put r.1, if r.2 then noFlags else flagNX)

/-- An integer converted to a floating format (R34). -/
def ofInteger (f : Elem) (rm : Nat) (sat : Bool) (i : Int) : Nat × Flags :=
  roundTo f rm sat (decide (i < 0)) i.natAbs 0

/-- An integer converted to an integer format of `w` bits: clamped to its range, no flag (R34). -/
def clampInteger (w : Nat) (isSigned : Bool) (i : Int) : Nat :=
  let lo : Int := if isSigned then -(2 ^ (w - 1) : Int) else 0
  let hi : Int := if isSigned then 2 ^ (w - 1) - 1 else 2 ^ w - 1
  ((max lo (min hi i)) % (2 ^ w : Int)).toNat

/-- A value converted to E8M0 (R35). -/
def toE8m0 (v : FVal) : Nat × Flags :=
  match v with
  | .nan => (0xFF, flagNV)
  | .inf _ => (0xFF, flagNV)
  | .num neg m e =>
    if m = 0 then (0, flagUF ||| flagNX)
    else
      let x := (m.log2 : Int) + e + 127
      if x < 0 then (0, flagUF ||| flagNX)
      else if 254 < x then (0xFE, flagOF ||| flagNX)
      else (x.toNat, if neg || decide (m ≠ 2 ^ m.log2) then flagNX else noFlags)

/-- The value of an E8M0 code (R20). -/
def ofE8m0 (c : Nat) : FVal := if c = 255 then .nan else .num false 1 ((c : Int) - 127)

/-- What a format code of R57 names. -/
inductive Fmt where
  | flt (f : Elem)
  | e8m0
  | int (w : Nat) (isSigned : Bool)
  deriving DecidableEq, Repr

/-- The format of a code (R57). -/
def fmtOf (c : BitVec 4) : Fmt :=
  match c.toNat with
  | 0x0 => .flt .fp64
  | 0x1 => .flt .fp32
  | 0x2 => .flt .fp16
  | 0x3 => .flt .bf16
  | 0x4 => .flt .e4m3
  | 0x5 => .flt .e5m2
  | 0x6 => .flt .e2m1
  | 0x7 => .e8m0
  | 0x8 => .int 8 true
  | 0x9 => .int 8 false
  | 0xA => .int 16 true
  | 0xB => .int 16 false
  | 0xC => .int 32 true
  | 0xD => .int 32 false
  | 0xE => .int 64 true
  | _ => .int 64 false

/-- Bits read as an integer of `w` bits. -/
def intOf (w : Nat) (isSigned : Bool) (bits : Nat) : Int :=
  if isSigned && decide (2 ^ (w - 1) ≤ bits) then (bits : Int) - 2 ^ w else bits

/-- A conversion between any two formats of R57 (R32 to R35, R127). A conversion from E8M0 to an integer rounds its
value as any floating source. -/
def convert (dst src : Fmt) (rm : Nat) (sat : Bool) (bits : Nat) : Nat × Flags :=
  match src, dst with
  | .flt f, .flt g => toFloat g rm sat (decodeF f bits)
  | .flt f, .e8m0 => toE8m0 (decodeF f bits)
  | .flt f, .int w s => toInteger w s rm (decodeF f bits)
  | .e8m0, .flt g => toFloat g rm sat (ofE8m0 bits)
  | .e8m0, .e8m0 => (bits, noFlags)
  | .e8m0, .int w s => toInteger w s rm (ofE8m0 bits)
  | .int w s, .flt g => ofInteger g rm sat (intOf w s bits)
  | .int w s, .e8m0 =>
    let i := intOf w s bits
    toE8m0 (.num (decide (i < 0)) i.natAbs 0)
  | .int w s, .int v t => (clampInteger v t (intOf w s bits), noFlags)

/-! ## FP32 sums (R36, R354, R359, R405) -/

/-- The exact widening of a value to FP32 (R32). -/
def widen32 (f : Elem) (bits : Nat) : Nat :=
  match decodeF f bits with
  | .nan => Elem.fp32.nanBits
  | v => (toFloat .fp32 0 false v).1

/-- Round-to-nearest FP32 addition that reads and sets nothing. -/
def add32 (a b : Nat) : Nat := (fAdd .fp32 0 a b).1

/-! ## The accumulation windows (R38, R39) -/

/-- A term of the window, cut to a multiple of 2^q toward zero: a signed multiple. -/
def cutTerm (q : Int) (v : FVal) : Int :=
  match v with
  | .num neg m e => signed neg (if q ≤ e then m * 2 ^ (e - q).toNat else m / 2 ^ (q - e).toNat)
  | _ => 0

/-- floor(log2 |t|) of a nonzero finite value. -/
def topOfVal (v : FVal) : Option Int :=
  match v with
  | .num _ m e => if m = 0 then none else some ((m.log2 : Int) + e)
  | _ => none

/-- `acc_window` of R38 over terms already negated, the accumulator among them unless it is omitted. `bad` says that a
product is 0 times infinity. -/
def accTerms (sat bad : Bool) (terms : List FVal) : BitVec 32 :=
  if bad || terms.any FVal.isNan || (terms.contains (.inf false) && terms.contains (.inf true)) then 0x7FC00000
  else if terms.contains (.inf false) then 0x7F800000
  else if terms.contains (.inf true) then 0xFF800000
  else
    match (terms.filterMap topOfVal).foldl (fun (m : Option Int) t => some (match m with
        | none => t
        | some x => max x t)) none with
    | none => 0
    | some e =>
      let q := e - 40
      let s := (terms.map (cutTerm q)).foldl (· + ·) 0
      if s = 0 then 0
      else
        let r := roundTo .fp32 0 sat (decide (s < 0)) s.natAbs q
        BitVec.ofNat 32 r.1

/-- The integer accumulation of R39. -/
def intAcc (acc : BitVec 32) (ps : List Int) (neg sat ovw : Bool) : BitVec 32 :=
  let s := ps.foldl (fun t p => if neg then t - p else t + p) (if ovw then 0 else acc.toInt)
  if sat then BitVec.ofInt 32 (max (-(2 ^ 31 : Int)) (min (2 ^ 31 - 1) s)) else BitVec.ofInt 32 s

/-- The format that SEW and ALT select holds integers too: every one but E2M1 (R59). -/
def Elem.isInt (e : Elem) : Bool := decide (e ≠ .e2m1)

end Sys2Proof.Machine
end

