-- ==== Sys2Proof/Machine/Memory.lean ====
section
/-! DEFINITION. Memory.lean: local memory as a list of cells in canonical form: locations strictly rising, and no cell
that holds what an unlisted location reads as. That value is 0: step 5 of R384 zeroes DRAM and the scratchpads; for the
scalar data memories and the firmware region it is the model's choice (assumption log 2). -/

namespace Sys2Proof.Machine

/-- What a location that no cell lists reads as. -/
def blankByte : Byte := 0

/-- The byte at a location. -/
def readCell : List Host.Cell → Nat → Byte
  | [], _ => blankByte
  | (k, v) :: rest, a => if a = k then v else if a < k then blankByte else readCell rest a

/-- The cells with the byte at a location replaced. -/
def writeCell : List Host.Cell → Nat → Byte → List Host.Cell
  | [], a, b => if b = blankByte then [] else [(a, b)]
  | (k, v) :: rest, a, b =>
    if a < k then (if b = blankByte then (k, v) :: rest else (a, b) :: (k, v) :: rest)
    else if a = k then (if b = blankByte then rest else (k, b) :: rest)
    else (k, v) :: writeCell rest a b

/-- The first location of every cell is above `lo`, locations rise strictly, and no cell is blank. -/
def cellsFrom : Nat → List Host.Cell → Bool
  | _, [] => true
  | lo, (k, v) :: rest => decide (lo ≤ k) && decide (v ≠ blankByte) && cellsFrom (k + 1) rest

/-- The canonical form. -/
def Memory.wf (m : List Host.Cell) : Bool := cellsFrom 0 m

/-- `n` bytes from a location on. -/
def readCells (m : List Host.Cell) (a : Nat) : Nat → List Byte
  | 0 => []
  | n + 1 => readCell m a :: readCells m (a + 1) n

/-- Bytes written from a location on. -/
def writeCells (m : List Host.Cell) (a : Nat) : List Byte → List Host.Cell
  | [] => m
  | b :: bs => writeCells (writeCell m a b) (a + 1) bs

/-- The cells with `n` bytes from a location on blank. -/
def zeroCells (m : List Host.Cell) (a n : Nat) : List Host.Cell :=
  m.filter fun c => decide (c.1 < a) || decide (a + n ≤ c.1)

/-- The cells with the `n` bytes from `src` on written from `dst` on. -/
def copyCells (m : List Host.Cell) (src dst n : Nat) : List Host.Cell :=
  (m.filter fun c => decide (src ≤ c.1) && decide (c.1 < src + n)).foldl
    (fun acc c => writeCell acc (dst + (c.1 - src)) c.2) (zeroCells m dst n)

/-! ## Locations (R188, R191, R258, R259) -/

/-- Bytes of one DRAM view: 16 stacks of 2^36 bytes. -/
def dramBytes : Nat := 0x10000000000

/-- The global aperture of a core's scratchpad. -/
def scratchBase (core : Nat) : Nat := 0x20000000000 + core * 0x400000

/-- Bytes of a scratchpad. -/
def scratchBytes : Nat := 0x300000

/-- The model's location of a core's scalar data memory, above every local physical address. -/
def scalarBase (core : Nat) : Nat := 0x40000000000 + core * 0x10000

/-- A DRAM cell's location from its stack and stack-local offset: its homed-view address. -/
def cellLoc (stack off : Nat) : Nat := stack * 0x1000000000 + off

/-- The DRAM cell that a local address of either view names, as a location; `none` outside DRAM (R259). -/
def dramLoc (pa : Nat) : Option Nat :=
  if pa < dramBytes then some pa
  else if pa < 2 * dramBytes then
    let p := pa - dramBytes
    some (cellLoc (p / 1024 % 16) (p / 16384 * 1024 + p % 1024))
  else none

/-- The stack that owns a DRAM location. -/
def stackOf (l : Nat) : Nat := l / 0x1000000000

/-- The scratchpad byte that a local address names in the global apertures: core and offset. -/
def apertureOf (pa : Nat) : Option (Nat × Nat) :=
  if 0x20000000000 ≤ pa ∧ pa < 0x20000000000 + 128 * 0x400000 ∧ (pa - 0x20000000000) % 0x400000 < scratchBytes then
    some ((pa - 0x20000000000) / 0x400000, (pa - 0x20000000000) % 0x400000)
  else none

/-- A location lies in DRAM. -/
def inDram (l : Nat) : Bool := decide (l < dramBytes)

/-- The protected unit that holds a location: a 32-byte word of DRAM, 8 bytes elsewhere (R389). -/
def unitOf (l : Nat) : Nat := if l < dramBytes then l / 32 * 32 else l / 8 * 8

/-- The bytes of the protected unit that holds a location. -/
def unitBytes (l : Nat) : Nat := if l < dramBytes then 32 else 8

/-- The protected units that `n` bytes from a location on touch. -/
def unitsOf (l n : Nat) : List Nat :=
  if n = 0 then []
  else tabulate ((unitOf (l + n - 1) - unitOf l) / unitBytes l + 1) fun i => unitOf l + i * unitBytes l

/-- A unit that `n` bytes from a location on cover whole. -/
def coversUnit (u l n : Nat) : Bool := decide (l ≤ u) && decide (u + unitBytes u ≤ l + n)

/-- A 32-byte word of DRAM that `n` bytes from a location on touch is marked poisoned (R331). -/
def touchesPoison (s : State) (l n : Nat) : Bool :=
  s.poisoned.any fun u => decide (u < l + n) && decide (l < u + 32)

/-- A protected unit that `n` bytes from a location on touch holds an uncorrectable error (R211, R330). -/
def touchesBad (s : State) (l n : Nat) : Bool :=
  s.badUnits.any fun u => decide (u < l + n) && decide (l < u + unitBytes u)

/-- The writes of watched words counted on by a write of `n` bytes (R199). -/
def countWrites (l n : Nat) (ws : List (Nat × Nat)) : List (Nat × Nat) :=
  ws.map fun w => if l < w.1 + 32 ∧ w.1 < l + n then (w.1, w.2 + 1) else w

/-- Bytes written to local memory. A write that covers a protected unit whole clears its error and its poison
(R331, R389), and any write counts at the words that sleeping harts watch. -/
def State.writeLoc (s : State) (l : Nat) (bs : List Byte) : State :=
  { s with
    mem := writeCells s.mem l bs
    watched := countWrites l bs.length s.watched
    badUnits := s.badUnits.filter fun u => !coversUnit u l bs.length
    poisoned := s.poisoned.filter fun u => !coversUnit u l bs.length }

/-- Bytes read from local memory. -/
def State.readLoc (s : State) (l n : Nat) : List Byte := readCells s.mem l n

/-- The 32-byte words of DRAM, or protected units elsewhere, that a write of `n` bytes touches become poisoned or bad
(R331, R350). -/
def State.poisonLoc (s : State) (l n : Nat) : State :=
  if inDram l then { s with poisoned := s.poisoned ++ (unitsOf l n).filter fun u => !s.poisoned.contains u }
  else { s with badUnits := s.badUnits ++ (unitsOf l n).filter fun u => !s.badUnits.contains u }

end Sys2Proof.Machine
end

