-- ==== Sys2Proof/Machine/Ops.lean ====
section
/-! DEFINITION. Ops.lean: the named operations on registers, harts, messages and arrival words, and taking a trap. -/

namespace Sys2Proof.Machine

/-! ## Registers -/

/-- An x register read: x0 reads zero (R68). -/
def Hart.get (h : Hart) (r : BitVec 5) : Word := if r = 0 then 0 else h.x[r.toNat]'r.isLt

/-- An x register written: a write to x0 is discarded (R68, R92). -/
def Hart.set (h : Hart) (r : BitVec 5) (w : Word) : Hart :=
  if r = 0 then h else { h with x := h.x.set r.toNat w r.isLt }

/-- An x register of the current hart. -/
def State.x (s : State) (r : BitVec 5) : Word := s.hart.get r

/-- The current hart changed. -/
def State.onHart (s : State) (f : Hart → Hart) : State := { s with hart := f s.hart }

/-- An x register of the current hart written. -/
def State.setX (s : State) (r : BitVec 5) (w : Word) : State := { s with hart := s.hart.set r w }

/-- The pc of the current hart written. -/
def State.setPc (s : State) (w : Word) : State := { s with hart := { s.hart with pc := w } }

/-- The CSRs of the current hart changed. -/
def State.onCsr (s : State) (f : Csrs → Csrs) : State := { s with hart := { s.hart with csr := f s.hart.csr } }

/-- A mask register: m0 reads all ones (R73). -/
def Hart.mask (h : Hart) (r : BitVec 5) : Mask := if r = 0 then BitVec.allOnes 8192 else h.m.getD r.toNat 0

/-- A mask register written: m0 ignores every write (R73). -/
def Hart.setMask (h : Hart) (r : BitVec 5) (v : Mask) : Hart :=
  if r = 0 then h else { h with m := h.m.setIfInBounds r.toNat v }

/-! ## The shape of the register file (R69) -/

/-- Registers that a count declares in each bank. -/
def Count.regs : Count → Nat
  | .c8 => 8
  | .c16 => 16
  | .c32 => 32

/-- Element groups of a register. -/
def Count.groups : Count → Nat
  | .c8 => 32
  | .c16 => 16
  | .c32 => 8

/-- The count code of VCFG (R59). -/
def Count.code : Count → BitVec 2
  | .c8 => 0
  | .c16 => 1
  | .c32 => 2

/-- The count of a code; `none` is the reserved code. -/
def Count.ofCode (c : BitVec 2) : Option Count :=
  match c.toNat with
  | 0 => some .c8
  | 1 => some .c16
  | 2 => some .c32
  | _ => none

/-- The SEW code of VCFG (R59). -/
def Elem.sewCode : Elem → BitVec 3
  | .e2m1 => 0
  | .e4m3 => 1
  | .e5m2 => 1
  | .fp16 => 2
  | .bf16 => 2
  | .fp32 => 3
  | .fp64 => 4

/-- The ALT bit of VCFG (R59). -/
def Elem.alt : Elem → BitVec 1
  | .bf16 => 1
  | .e5m2 => 1
  | _ => 0

/-- The element format of a SEW code and ALT; `none` is a reserved combination (R59). -/
def Elem.ofCode (sew : BitVec 3) (alt : BitVec 1) : Option Elem :=
  match sew.toNat, alt.toNat with
  | 0, 0 => some .e2m1
  | 1, 0 => some .e4m3
  | 1, 1 => some .e5m2
  | 2, 0 => some .fp16
  | 2, 1 => some .bf16
  | 3, 0 => some .fp32
  | 4, 0 => some .fp64
  | _, _ => none

/-- VMAX = 8 × register size in bytes / SEW. -/
def vmaxOf (c : Count) (e : Elem) : Nat := 8 * (256 * c.groups) / e.width

/-- VMAX of the hart. -/
def Hart.vmax (h : Hart) : Nat := vmaxOf h.count h.elem

/-- CSR VCFG (R88). -/
def Hart.vcfgWord (h : Hart) : Word := zext (h.elem.alt ++ h.elem.sewCode ++ h.count.code)

/-! ## Identity (R13, R91) -/

/-- The core of a hart. -/
def coreOf (h : HartId) : BitVec 7 := h.extractLsb' 2 7

/-- The home stack of a hart: COREID div 8. -/
def homeOf (h : HartId) : BitVec 4 := h.extractLsb' 5 4

/-- The cluster of a hart. -/
def clusterOf (h : HartId) : BitVec 5 := h.extractLsb' 4 5

/-- The place of a hart in its core. -/
def placeIn (h : HartId) : BitVec 2 := h.extractLsb' 0 2

/-- The core of the current hart. -/
def State.core (s : State) : Core := s.cores[(coreOf s.hart.id).toNat]'(coreOf s.hart.id).isLt

/-- A core changed. -/
def State.onCore (s : State) (c : BitVec 7) (f : Core → Core) : State :=
  { s with cores := s.cores.set c.toNat (f (s.cores[c.toNat]'c.isLt)) c.isLt }

/-- A stack changed. -/
def State.onStack (s : State) (t : BitVec 4) (f : Stack → Stack) : State :=
  { s with stack := s.stack.set t.toNat (f (s.stack[t.toNat]'t.isLt)) t.isLt }

/-- A stack. -/
def State.stackAt (s : State) (t : BitVec 4) : Stack := s.stack[t.toNat]'t.isLt

/-! ## The places of harts -/

/-- The hart put among the others, which ascend. -/
def insertHart (x : Hart) : List Hart → List Hart
  | [] => [x]
  | y :: ys => if x.id.toNat ≤ y.id.toNat then x :: y :: ys else y :: insertHart x ys

/-- The others without a place. -/
def dropHart (i : HartId) (l : List Hart) : List Hart := l.filter fun y => decide (y.id ≠ i)

/-- The hart at a place. -/
def State.place (s : State) (i : HartId) : Hart :=
  if s.hart.id = i then s.hart else (s.parked.find? fun y => decide (y.id = i)).getD (Hart.reset i)

/-- A place as reset leaves it, which need not be listed. -/
def Hart.blank (h : Hart) : Bool := !h.live && decide (h = Hart.reset h.id)

/-- The hart of a place made the current one. -/
def State.focus (s : State) (i : HartId) : State :=
  if s.hart.id = i then s
  else
    let rest := dropHart i (dropHart s.hart.id s.parked)
    { s with hart := s.place i, parked := if s.hart.blank then rest else insertHart s.hart rest }

/-- An action of the hart at a place; the current hart stays the current one. -/
def withHart (i : HartId) (f : State → State) (s : State) : State := (f (s.focus i)).focus s.hart.id

/-- Every occupied place, ascending. -/
def State.harts (s : State) : List Hart :=
  let others := s.parked.filter Hart.live
  if s.hart.live then insertHart s.hart others else others

/-! ## Free values -/

/-- A fresh number for a free value. -/
def State.draw (s : State) : State := { s with draws := s.draws + 1 }

/-! ## Messages to the control node (R393 to R395) -/

/-- A subject, or none. -/
def noSubject : BitVec 32 := 0xFFFFFFFF

/-- A message is an EVENT. -/
def Message.isEvent : Message → Bool
  | .event _ _ _ => true
  | _ => false

/-- A message sent. While the port is down it is held; of EVENTs at most 4,096 are held and the others counted as lost
(R395). -/
def State.emit (s : State) (m : Message) : State :=
  if s.plat.portUp then { s with plat := { s.plat with sent := s.plat.sent ++ [m] } }
  else
    match m with
    | .event _ _ _ =>
      if (s.plat.held.filter Message.isEvent).length < 4096 then { s with plat := { s.plat with held := s.plat.held ++ [m] } }
      else { s with plat := { s.plat with lost := s.plat.lost + 1 } }
    | _ => { s with plat := { s.plat with held := s.plat.held ++ [m] } }

/-- A message sent over UALink or Spinel, which the Beryl port does not carry. -/
def State.transmit (s : State) (m : Message) : State := { s with plat := { s.plat with sent := s.plat.sent ++ [m] } }

/-- An EVENT sent. -/
def State.report (s : State) (kind : BitVec 16) (subject : BitVec 32) (values : List Word) : State :=
  s.emit (.event kind subject values)

/-- The HARTID of the current hart, as a subject. -/
def State.me (s : State) : BitVec 32 := s.hart.id.setWidth 32

/-! ## Traps (R43, R169 to R171) -/

/-- The trap causes (R413). -/
inductive Cause where
  | illegal
  | convoy
  | misalign
  | access
  | bound
  | shape
  | poison
  | ecallU
  | ecallS
  | break
  | waitrep
  | owned
  | brim
  | loop
  deriving DecidableEq, Repr

/-- The code that TCAUSE holds. -/
def Cause.code : Cause → Nat
  | .illegal => 1
  | .convoy => 2
  | .misalign => 3
  | .access => 4
  | .bound => 5
  | .shape => 6
  | .poison => 7
  | .ecallU => 8
  | .ecallS => 9
  | .break => 10
  | .waitrep => 11
  | .owned => 12
  | .brim => 13
  | .loop => 14

/-- FEI where no element is named. -/
def noElement : BitVec 32 := 0xFFFFFFFF

/-- STATUS.UT. -/
def Csrs.ut (c : Csrs) : Bool := bit c.status 1

/-- STATUS.PM. -/
def Csrs.pm (c : Csrs) : Mode := if bit c.status 0 then .supervisor else .user

/-- A mode as STATUS.PM holds it. -/
def Mode.bit : Mode → BitVec 1
  | .user => 0
  | .supervisor => 1

/-- What a trap records (R171). -/
structure TrapInfo where
  cause : Cause
  epc : Word
  val : Word
  grp : BitVec 6
  fei : BitVec 32
  deriving DecidableEq, Repr

/-- Trap entry (R170). -/
def Hart.enter (h : Hart) (t : TrapInfo) : Hart :=
  let code : Word := BitVec.ofNat 64 t.cause.code
  if h.mode = .user ∧ bit h.csr.tdeleg t.cause.code = true ∧ h.csr.ut = false then
    { h with
      csr := { h.csr with
        uepc := t.epc, ucause := code, utval := t.val, utgrp := zext t.grp, ufei := zext t.fei,
        status := setField h.csr.status 1 (1 : BitVec 1) }
      pc := h.csr.utvec
      wait := none
      sleep := none
      reissue := 0 }
  else
    { h with
      csr := { h.csr with
        tepc := t.epc, tcause := code, tval := t.val, tgrp := zext t.grp, fei := zext t.fei,
        status := setField h.csr.status 0 h.mode.bit }
      mode := .supervisor
      pc := h.csr.tvec
      wait := none
      sleep := none
      reissue := 0 }

/-- The current hart takes a trap. -/
def State.trap (s : State) (t : TrapInfo) : State := s.onHart fun h => h.enter t

/-- What a scalar instruction's trap records: its own address, group 0 and no element (R92, R171). -/
def State.scalarTrap (s : State) (c : Cause) (val : Word) : TrapInfo := ⟨c, s.hart.pc, val, 0, noElement⟩

/-- The registers that a return from a supervisor trap restores (R115, R170). -/
def Hart.eret (h : Hart) : Hart :=
  { h with mode := h.csr.pm, pc := h.csr.tepc, reissue := h.csr.tgrp.setWidth 6 }

/-- The registers that a return from a delegated trap restores (R115, R170). -/
def Hart.uret (h : Hart) : Hart :=
  { h with
    csr := { h.csr with status := setField h.csr.status 1 (0 : BitVec 1) }
    pc := h.csr.uepc
    reissue := h.csr.utgrp.setWidth 6 }

/-- The hart halts, and the device says so (R170, R211). -/
def State.haltHart (s : State) : State :=
  { s with hart := { s.hart with halted := true, wait := none, sleep := none } }.report 0x0014 s.me [s.hart.pc]

/-! ## Arrival words (R193, R194) -/

/-- An arrival word. -/
structure Arrival where
  count : BitVec 32
  target : BitVec 32
  generation : BitVec 32
  status : BitVec 32
  deriving DecidableEq, Repr

/-- The arrival word that 16 bytes hold. -/
def Arrival.ofBytes (b : List Byte) : Arrival where
  count := BitVec.ofNat 32 (leNat (b.take 4))
  target := BitVec.ofNat 32 (leNat ((b.drop 4).take 4))
  generation := BitVec.ofNat 32 (leNat ((b.drop 8).take 4))
  status := BitVec.ofNat 32 (leNat ((b.drop 12).take 4))

/-- Its 16 bytes. -/
def Arrival.bytes (a : Arrival) : List Byte :=
  toBytes a.count.toNat 4 ++ toBytes a.target.toNat 4 ++ toBytes a.generation.toNat 4 ++ toBytes a.status.toNat 4

/-- A contribution of k bytes (R194). -/
def Arrival.contribute (a : Arrival) (k : BitVec 32) : Arrival :=
  let count := min (a.count.toNat + k.toNat) (2 ^ 32 - 1)
  let st := if count = 2 ^ 32 - 1 then a.status ||| 1 else a.status
  if a.target ≠ 0 ∧ a.target.toNat ≤ count then
    let left := count - a.target.toNat
    { a with
      generation := a.generation + 1
      count := BitVec.ofNat 32 left
      status := if left ≠ 0 then st ||| 1 else st }
  else { a with count := BitVec.ofNat 32 count, status := st }

/-- `awarm` (R196). -/
def Arrival.arm (a : Arrival) (t : BitVec 32) : Arrival := { a with target := t, count := 0, status := 0 }

/-- An arrival word read at its home. -/
def State.arrival (s : State) (l : Nat) : Arrival := Arrival.ofBytes (s.readLoc l 16)

/-- An arrival word updated at its home, in one indivisible action. -/
def State.onArrival (s : State) (l : Nat) (f : Arrival → Arrival) : State := s.writeLoc l (f (s.arrival l)).bytes

end Sys2Proof.Machine
end

