-- ==== Sys2Proof/Machine/Fault.lean ====
section
/-! DEFINITION. Fault.lean: the fault buffer (R270 to R273), errors in storage (R202, R211, R330, R389, R414) and the
access counters (R336). -/

namespace Sys2Proof.Machine

/-! ## Local physical addresses (R258) -/

/-- The local part of a physical address of this package. -/
def State.localPa (s : State) (pa : Nat) : Option Nat :=
  if pa / 2 ^ 42 = s.pkg.pkgid.toNat then some (pa % 2 ^ 42) else none

/-- The DRAM location that a physical address names in either view. -/
def State.dramAt (s : State) (pa : Nat) : Option Nat := (s.localPa pa).bind dramLoc

/-- The homed-view physical address of a DRAM location. -/
def State.homedPa (s : State) (l : Nat) : Nat := s.pkg.pkgid.toNat * 2 ^ 42 + l

/-! ## Fault records (R270) -/

/-- What a fault record says of the access that failed. -/
structure FaultInfo where
  va : Word
  /-- The instruction's or convoy's address; 0 for engine work and the controller. -/
  addr : Word
  /-- HARTID, or 0xFFFF. -/
  hart : BitVec 16
  /-- 0 scalar, 1 crown vector, 2 brim, 3 fetch, 4 engine or farm controller. -/
  source : Nat
  /-- Bit 0 read, bit 1 write, bit 2 execute, bit 3 atomic. -/
  access : Nat
  elem : BitVec 32
  group : Nat
  level : Nat
  /-- The stack of a brim or engine source; 0xFF for others. -/
  stack : Nat
  farmid : Word
  ptbase : Word
  deriving DecidableEq, Repr

/-- The 64 bytes of a record, with its sequence number and whether it was held. -/
def FaultInfo.bytes (f : FaultInfo) : List Byte :=
  bytesOf f.va 8 ++ bytesOf f.addr 8 ++ toBytes 0 8 ++ toBytes f.hart.toNat 2 ++ toBytes f.source 1 ++
    toBytes f.access 1 ++ toBytes f.elem.toNat 4 ++ toBytes f.group 1 ++ toBytes f.level 1 ++ toBytes f.stack 1 ++
    toBytes 0 1 ++ bytesOf f.farmid 4 ++ bytesOf f.ptbase 8 ++ toBytes 0 16

/-- A record as it is written: its sequence number, and byte 35 when it was held. -/
def sealRecord (r : List Byte) (seq : Word) (held : Bool) : List Byte :=
  r.take 16 ++ bytesOf seq 8 ++ (r.drop 24).take 11 ++ [if held then 1 else 0] ++ r.drop 36

/-- The fault buffer has room (R271, R273). -/
def State.ringRoom (s : State) : Bool :=
  decide (s.pkg.fbsize ≠ 0) && decide (s.pkg.fbhead - s.pkg.fbtail ≠ s.pkg.fbsize)

/-- A record written to the ring (R272): its bytes, FBHEAD, and the EVENT. -/
def State.writeRecord (s : State) (st : Stall) (held : Bool) : State × Stall :=
  let seq := s.pkg.fbhead
  let at_ := s.pkg.fbbase.toNat + 64 * (seq.toNat % s.pkg.fbsize.toNat)
  let s1 := match s.dramAt at_ with
    | some l => s.writeLoc l (sealRecord st.record seq held)
    | none => s
  ({ s1 with pkg := { s1.pkg with fbhead := seq + 1 } }.report 0x0012 st.subject [seq], { st with seq := some seq })

/-- The requester that an EVENT of a failed request names (R395): a hart, or the stack of engine work. -/
def State.requesterOf (s : State) (o : Owner) : BitVec 32 :=
  match o with
  | .hart h => h.setWidth 32
  | .brim h => h.setWidth 32
  | .engine id _ =>
    match s.works.find? fun w => decide (w.id = id) with
    | some w => w.stack.setWidth 32
    | none => noSubject
  | .farm _ => noSubject
  | .gone => noSubject

/-- The hart or the controller that a record names as the subject of its EVENT (R395). -/
def FaultInfo.subject (f : FaultInfo) : BitVec 32 := if f.hart = 0xFFFF then noSubject else f.hart.setWidth 32

/-- Work stalls for replay: its record is written, or held while the buffer has no room (R269 to R273). -/
def State.stall (s : State) (o : Owner) (f : FaultInfo) : State :=
  let st : Stall := ⟨o, f.bytes, none, f.subject⟩
  if s.ringRoom then
    let r := s.writeRecord st false
    { r.1 with stalls := r.1.stalls ++ [r.2] }
  else { s with stalls := s.stalls ++ [st], pkg := { s.pkg with fbovf := true } }

/-- Work of that owner is stalled. -/
def State.stalled (s : State) (o : Owner) : Bool := s.stalls.any fun t => decide (t.owner = o)

/-- The stalls of an owner end without a replay: pre-emption withdraws a held record (R273), and the end of a farm
forgets it. -/
def State.dropStalls (s : State) (p : Owner → Bool) : State :=
  { s with stalls := s.stalls.filter fun t => !p t.owner }

/-- Held records written while there is room, in arrival order (R273). -/
def writeHeld : List Stall → State → State
  | [], s => s
  | t :: ts, s =>
    if t.seq.isNone && s.ringRoom then
      let r := s.writeRecord t true
      writeHeld ts { r.1 with stalls := r.1.stalls.map fun u => if u = t then r.2 else u }
    else writeHeld ts s

/-- REPLAY of a sequence number: the work stalled on it may go on (R272). -/
def State.replay (s : State) (n : Word) : State := { s with stalls := s.stalls.filter fun t => decide (t.seq ≠ some n) }

/-- Records held now (R271). -/
def State.heldRecords (s : State) : Nat := (s.stalls.filter fun t => t.seq.isNone).length

/-! ## Errors in storage (R211, R389, R414) -/

/-- CERR with one more error of a kind (R202). -/
def cerrAdd (w : Word) (kind : BitVec 2) (off : Nat) : Word :=
  kind.setWidth 64 <<< 62 ||| zext (satAdd (field w 56 6) 1) <<< 56 ||| BitVec.ofNat 64 (off % 2 ^ 56)

/-- A reader as an EVENT names it: a HARTID, or none. -/
def readerWord (h : Option HartId) : Word :=
  match h with
  | some i => zext i
  | none => 0xFFFFFFFF

/-- Errors met by a read of `n` bytes of local memory from a location on, recorded and reported (R202, R211, R330,
R331, R414). -/
def State.reportErrors (s : State) (reader : Option HartId) (l n : Nat) : State :=
  let bad := (s.badUnits.filter fun u => decide (u < l + n) && decide (l < u + unitBytes u)).map fun u => (u, false)
  let poi := (s.poisoned.filter fun u => decide (u < l + n) && decide (l < u + 32)).map fun u => (u, true)
  (bad ++ poi).foldl (fun s (u, isPoison) =>
    if inDram u then
      s.report 0x0020 (BitVec.ofNat 32 (stackOf u))
        (if s.failing = some u then [10, BitVec.ofNat 64 (s.homedPa l), readerWord reader]
         else [if isPoison then 9 else if s.badCached.contains u then 5 else 4, BitVec.ofNat 64 (s.homedPa u),
           readerWord reader])
    else if u < scalarBase 0 then
      let c := (u - scratchBase 0) / 0x400000
      let off := (u - scratchBase 0) % 0x400000
      (s.onCore (BitVec.ofNat 7 c) fun k => { k with cerr := cerrAdd k.cerr 1 off }).report 0x0020 (BitVec.ofNat 32 c)
        [1, BitVec.ofNat 64 off, 0xFFFFFFFF]
    else
      let c := (u - scalarBase 0) / 0x10000
      let off := (u - scalarBase 0) % 0x10000
      (s.onCore (BitVec.ofNat 7 c) fun k => { k with cerr := cerrAdd k.cerr 2 off }).report 0x0020 (BitVec.ofNat 32 c)
        [2, BitVec.ofNat 64 off, 0xFFFFFFFF]) s

/-- A read of `n` bytes of local memory from a location on meets an error. -/
def State.readFails (s : State) (l n : Nat) : Bool := touchesBad s l n || touchesPoison s l n

/-- An error in crown register or tile storage of a hart, recorded and reported: 0 to 31 for a register, 64 or 65 for a
tile (R202, R211, R231, R414). -/
def State.crownError (s : State) (h : HartId) (storage : Nat) : State :=
  let off := storage + (placeIn h).toNat * 256
  (s.onCore (coreOf h) fun k => { k with cerr := cerrAdd k.cerr 3 off }).report 0x0020 (BitVec.ofNat 32 (coreOf h).toNat)
    [3, BitVec.ofNat 64 off, zext h]

/-! ## Access counters (R336) -/

/-- The counters of a region in a list that ascends by region. -/
def bumpRegion (r : Nat) (crown : Bool) : List (Nat × BitVec 8 × BitVec 8) → List (Nat × BitVec 8 × BitVec 8)
  | [] => [if crown then (r, 1, 0) else (r, 0, 1)]
  | (k, c, b) :: rest =>
    if r = k then (if crown then (k, satAdd c 1, b) else (k, c, satAdd b 1)) :: rest
    else if r < k then (if crown then (r, 1, 0) else (r, 0, 1)) :: (k, c, b) :: rest
    else (k, c, b) :: bumpRegion r crown rest

/-- One request for one 32-byte word, counted by its stack. -/
def State.countWord (s : State) (crown : Bool) (l : Nat) : State :=
  if inDram l then
    s.onStack (BitVec.ofNat 4 (stackOf l)) fun t =>
      { t with access := bumpRegion (l % 0x1000000000 / 65536) crown t.access }
  else s

/-- The requests of an access of `n` bytes, one for each 32-byte word. -/
def State.countAccess (s : State) (crown : Bool) (l n : Nat) : State :=
  if inDram l && decide (n ≠ 0) then upTo ((l + n - 1) / 32 - l / 32 + 1) s fun s i => s.countWord crown ((l / 32 + i) * 32)
  else s

end Sys2Proof.Machine
end

