-- ==== Sys2Proof/Machine/Translate.lean ====
section
/-! DEFINITION. Translate.lean: the walk, the translation caches, permissions, and the A and D bits (R257 to R268). -/

namespace Sys2Proof.Machine

/-- An address is canonical: bits [63:57] equal bit 56 (R257). -/
def canonical (va : Word) : Bool := (field va 57 7 == (if bit va 56 then BitVec.allOnes 7 else 0))

/-- An address lies in the local region (R257). -/
def inLocal (va : Word) : Bool := decide (0xFFFFFFF000000000 ≤ va.toNat)

/-- The page sorter that translates for an access (R265). -/
inductive Sorter where
  | core (c : BitVec 7)
  | stack (t : BitVec 4)
  deriving DecidableEq, Repr

/-- Under what an access is translated and checked. -/
structure Space where
  sorter : Sorter
  ptbase : Word
  mode : Mode
  deriving DecidableEq, Repr

/-- What an access needs (R264). -/
structure Need where
  r : Bool
  w : Bool
  x : Bool
  deriving DecidableEq, Repr

/-- Why a translation fails (R269). -/
inductive Miss where
  /-- An entry with V clear, at its level: replayable. -/
  | invalid (level : Nat)
  | malformed
  /-- An uncorrectable error in the entry at that location. -/
  | badEntry (ea : Nat)
  /-- Permission or privilege. -/
  | denied
  /-- Every walker of the quadrant has failed (R276). -/
  | noWalker
  deriving DecidableEq, Repr

/-- What a walk finds. -/
inductive Walked where
  | leaf (e : Word) (ea : Nat) (size : Nat)
  | miss (m : Miss)
  deriving DecidableEq, Repr

/-! ## Entries (R260 to R263) -/

/-- The frame of an entry, as an address. -/
def frameOf (e : Word) : Nat := (field e 16 40).toNat * 4096

/-- Page sizes in bytes by size code. -/
def sizeOfCode (c : Nat) : Nat :=
  match c with
  | 0 => 0x1000
  | 1 => 0x10000
  | 2 => 0x200000
  | _ => 0x40000000

/-- A size code fits a level (R261). -/
def sizeFits (lvl c : Nat) : Bool :=
  match lvl with
  | 0 => decide (c ≤ 1)
  | 1 => decide (c = 2)
  | 2 => decide (c = 3)
  | _ => false

/-- The placement of a leaf is valid (R263). -/
def State.placementOk (s : State) (e : Word) : Bool :=
  let f := frameOf e
  let home := (field e 10 4).toNat
  match (field e 14 2).toNat with
  | 0 =>
    match s.localPa f with
    | some p =>
      (decide (p < dramBytes) && decide (home = p / 0x1000000000)) ||
        (match apertureOf p with
         | some (c, _) => decide (home = c / 8)
         | none => false)
    | none => false
  | 1 =>
    match s.localPa f with
    | some p => decide (dramBytes ≤ p) && decide (p < 2 * dramBytes) && decide (home = 0)
    | none => false
  | 2 => (s.localPa f).isNone && decide (home = 0)
  | _ => false

/-- A leaf at a level, checked (R261 to R263). -/
def State.leafAt (s : State) (lvl : Nat) (e : Word) (ea : Nat) : Walked :=
  let size := sizeOfCode (field e 8 2).toNat
  if bit e 2 && !bit e 1 then .miss .malformed
  else if !sizeFits lvl (field e 8 2).toNat then .miss .malformed
  else if frameOf e % size ≠ 0 then .miss .malformed
  else if !s.placementOk e then .miss .malformed
  else .leaf e ea size

/-- The entry at a location. -/
def State.pte (s : State) (ea : Nat) : Word := wordOf (s.readLoc ea 8)

/-- The index of a level in an address. -/
def vaIndex (va : Word) (lvl : Nat) : Nat := va.toNat / 2 ^ (12 + 9 * lvl) % 512

/-- What a walk read on its way: entries read from memory, and the pointers among them. -/
structure Trail where
  reads : List Nat
  pointers : List (Nat × Word)
  deriving DecidableEq, Repr

/-- An entry that is not V clear: the reserved bits, a pointer, or a leaf. At level 0 there is no pointer. -/
def State.leafOnly (s : State) (lvl : Nat) (e : Word) (ea : Nat) : Walked :=
  if field e 56 8 ≠ 0 then .miss .malformed
  else if field e 1 3 = 0 then .miss .malformed
  else s.leafAt lvl e ea

/-- The walk from a level down (R262). `cached` is the walker's walk cache. -/
def State.walkFrom (s : State) (cached : Nat → Option Word) (va : Word) : Nat → Nat → Trail → Walked × Trail
  | 0, table, t =>
    match s.dramAt (table + 8 * vaIndex va 0) with
    | none => (.miss .malformed, t)
    | some ea =>
      let t1 := { t with reads := t.reads ++ [ea] }
      if s.readFails ea 8 then (.miss (.badEntry ea), t1)
      else
        let e := s.pte ea
        if !bit e 0 then (.miss (.invalid 0), t1)
        else if field e 8 2 = 1 then
          let head := ea - 8 * (vaIndex va 0 % 16)
          let t2 := { t1 with reads := t1.reads ++ [head] }
          if s.readFails head 8 then (.miss (.badEntry head), t2)
          else
            let h := s.pte head
            if !bit h 0 || decide (field h 8 2 ≠ 1) then (.miss .malformed, t2)
            else (s.leafOnly 0 h head, t2)
        else (s.leafOnly 0 e ea, t1)
  | lvl + 1, table, t =>
    match s.dramAt (table + 8 * vaIndex va (lvl + 1)) with
    | none => (.miss .malformed, t)
    | some ea =>
      let hit := cached ea
      let t1 := if hit.isSome then t else { t with reads := t.reads ++ [ea] }
      if hit.isNone && s.readFails ea 8 then (.miss (.badEntry ea), t1)
      else
        let e := hit.getD (s.pte ea)
        if !bit e 0 then (.miss (.invalid (lvl + 1)), t1)
        else if field e 56 8 ≠ 0 then (.miss .malformed, t1)
        else if field e 1 3 = 0 then
          if field e 4 12 ≠ 0 then (.miss .malformed, t1)
          else if (s.dramAt (frameOf e)).isNone then (.miss .malformed, t1)
          else s.walkFrom cached va lvl (frameOf e) { t1 with pointers := (ea, e) :: t1.pointers }
        else (s.leafAt (lvl + 1) e ea, t1)

/-! ## The caches (R265) -/

/-- The quadrant whose walkers serve a page sorter. -/
def Sorter.quadrant : Sorter → Nat
  | .core c => c.toNat / 32
  | .stack t => t.toNat / 4

/-- The ASID of a page-table base. -/
def asidOf (ptbase : Word) : BitVec 12 := field ptbase 52 12

/-- The leaves that a page sorter holds. -/
def State.tlb (s : State) (p : Sorter) : List TlbEntry :=
  match p with
  | .core c => (s.cores[c.toNat]'c.isLt).tlb
  | .stack t => (s.stackAt t).tlb

/-- The leaves of a page sorter changed; it keeps the newest 512, or 1,024 in a brim lane die (R265). -/
def State.onTlb (s : State) (p : Sorter) (f : List TlbEntry → List TlbEntry) : State :=
  match p with
  | .core c => s.onCore c fun k => { k with tlb := (f k.tlb).take 512 }
  | .stack t => s.onStack t fun k => { k with tlb := (f k.tlb).take 1024 }

/-- A held leaf translates an address: its page holds the address, and its ASID matches or it is global. -/
def TlbEntry.hits (t : TlbEntry) (asid : BitVec 12) (va : Word) : Bool :=
  decide (t.base.toNat ≤ va.toNat) && decide (va.toNat < t.base.toNat + t.size) && (t.asid == asid || bit t.leaf 5)

/-- A walker of a quadrant that takes walks: the lowest that has not failed (R276). -/
def State.walkerOf (s : State) (q : Nat) : Option (Fin 32) :=
  (List.range 8).findSome? fun i =>
    let n := 8 * (q % 4) + i
    if h : n < 32 then (if (s.walkers[n]'h).failed then none else some ⟨n, h⟩) else none

/-- The pointers of a walk kept in the walk cache: the newest 256. -/
def keepPointers (asid : BitVec 12) (new : List (Nat × Word)) (old : List WalkEntry) : List WalkEntry :=
  ((new.map fun p => (⟨asid, p.1, p.2⟩ : WalkEntry)) ++ old.filter fun o => !new.any fun p => decide (p.1 = o.ea)).take 256

/-- Permissions and privilege of a leaf (R264). -/
def allowed (mode : Mode) (n : Need) (leaf : Word) : Bool :=
  (!n.r || bit leaf 1) && (!n.w || bit leaf 2) && (!n.x || bit leaf 3) &&
    (match mode with
     | .user => bit leaf 4
     | .supervisor => !(n.x && bit leaf 4))

/-- The pointers of an address space that a walker's walk cache holds. -/
def State.heldPointers (s : State) (w : Fin 32) (asid : BitVec 12) (ea : Nat) : Option Word :=
  (((s.walkers[w.val]'w.isLt).cache).find? fun e => decide (e.ea = ea) && e.asid == asid).map WalkEntry.entry

/-- A walk and the filling of the caches. -/
def State.walk (s : State) (sp : Space) (crown : Bool) (va : Word) : Except Miss TlbEntry × State :=
  match s.walkerOf sp.sorter.quadrant with
  | none => (.error .noWalker, s)
  | some w =>
    let asid := asidOf sp.ptbase
    let r := s.walkFrom (s.heldPointers w asid) va 4 ((field sp.ptbase 12 40).toNat * 4096) ⟨[], []⟩
    let s1 := r.2.reads.foldl (fun s l => s.countWord crown l) s
    let kept : Walker := ⟨false, keepPointers asid r.2.pointers (s.walkers[w.val]'w.isLt).cache⟩
    let s2 := { s1 with walkers := s1.walkers.set w.val kept w.isLt }
    match r.1 with
    | .leaf e ea size =>
      let t : TlbEntry := ⟨asid, BitVec.ofNat 64 (va.toNat / size * size), size, e, ea⟩
      (.ok t, s2.onTlb sp.sorter fun l => t :: l)
    | .miss m => (.error m, s2)

/-- An address translated (R262 to R265): from the page sorter, or by a walk. -/
def State.translate (s : State) (sp : Space) (crown : Bool) (n : Need) (va : Word) : Except Miss TlbEntry × State :=
  let found := (s.tlb sp.sorter).find? fun t => t.hits (asidOf sp.ptbase) va
  let r := match found with
    | some t => (Except.ok t, s)
    | none => s.walk sp crown va
  match r.1 with
  | .ok t => if allowed sp.mode n t.leaf then (.ok t, r.2) else (.error .denied, r.2)
  | .error m => (.error m, r.2)

/-- The physical address of an address in a page (R262). -/
def TlbEntry.pa (t : TlbEntry) (va : Word) : Nat := frameOf t.leaf + va.toNat % t.size

/-- A page sorter of the crown. -/
def Sorter.isCore : Sorter → Bool
  | .core _ => true
  | .stack _ => false

/-- A and D set in the leaf before the access that needs them, where the held leaf shows them clear (R264): an atomic OR
on the entry, which is a request of its own (R154, R336). -/
def State.markUsed (s : State) (sp : Space) (write : Bool) (t : TlbEntry) : State :=
  let want : Word := if write then 0xC0 else 0x40
  if t.leaf &&& want = want then s
  else
    ((s.countWord sp.sorter.isCore (t.ea / 32 * 32)).writeLoc t.ea (bytesOf (s.pte t.ea ||| want) 8)).onTlb sp.sorter fun l =>
      l.map fun u => if u.ea = t.ea ∧ u.asid = t.asid then { u with leaf := u.leaf ||| want } else u

/-! ## Invalidation (R268) -/

/-- A write of XINV drops a leaf. -/
def xinvDrops (v : Word) (t : TlbEntry) : Bool :=
  bit v 63 ||
    (decide (t.base.toNat % 2 ^ 57 ≤ (field v 0 45).toNat * 4096) &&
      decide ((field v 0 45).toNat * 4096 < t.base.toNat % 2 ^ 57 + t.size) &&
      (bit v 62 || field v 50 12 == t.asid || bit t.leaf 5))

/-- A write of XINV: the matching leaves of every page sorter, and every walk-cache entry (R268). -/
def State.xinv (s : State) (v : Word) : State :=
  { s with
    cores := s.cores.map fun k => { k with tlb := k.tlb.filter fun t => !xinvDrops v t }
    stack := s.stack.map fun k => { k with tlb := k.tlb.filter fun t => !xinvDrops v t }
    walkers := s.walkers.map fun k => { k with cache := [] } }

/-- The EVENT of an uncorrectable error in a page-table entry (R269, R414). -/
def State.reportEntry (s : State) (ea : Nat) (reader : Option HartId) : State :=
  s.report 0x0020 (BitVec.ofNat 32 (stackOf ea)) [7, BitVec.ofNat 64 (s.homedPa ea), readerWord reader]

end Sys2Proof.Machine
end

