-- ==== Sys2Proof/Machine/Access.lean ====
section
/-! DEFINITION. Access.lean: how an access of a hart reaches memory: the local windows, translated pages, other packages
(R99, R107, R150, R188 to R191, R239 to R241, R257, R258, R264, R321, R397, R399). -/

namespace Sys2Proof.Machine

/-! ## Reaching bytes -/

/-- Where bytes of one page lie. -/
inductive Place where
  | here (l : Nat)
  /-- In another package (R263). -/
  | away (pa : Nat)
  deriving DecidableEq, Repr

/-- Bytes of an access within one page. -/
structure Piece where
  va : Word
  len : Nat
  place : Place
  page : Option TlbEntry
  deriving DecidableEq, Repr

/-- What stops an access, in the order of R150. -/
inductive Stop where
  | nonCanonical
  | bound (index : Word)
  | window
  | invalid (level : Nat) (va : Word)
  /-- The page is being migrated (R338), or an answer of another package has not come: the access waits. -/
  | wait
  | denied (entry : Option Nat)
  | placement
  | data
  | remote
  deriving DecidableEq, Repr

/-- The place of a finding in the order of R150. -/
def Stop.rank : Stop → Nat
  | .nonCanonical => 0
  | .bound _ => 1
  | .window => 2
  | .wait => 3
  | .invalid _ _ => 3
  | .denied _ => 4
  | .placement => 5
  | .remote => 6
  | .data => 7

/-- Who makes an access: the scalar agent, the vector agent, or the brim agent with a vertical or lateral kind. -/
inductive Agent where
  | scalar
  | vector
  | vertical
  | lateral
  deriving DecidableEq, Repr

/-- A brim access. -/
def Agent.isBrim : Agent → Bool
  | .vertical => true
  | .lateral => true
  | _ => false

/-- Under what an agent of the current hart translates (R265). -/
def State.space (s : State) (g : Agent) : Space :=
  ⟨if g.isBrim then .stack (homeOf s.hart.id) else .core (coreOf s.hart.id), s.hart.csr.ptbase, s.hart.mode⟩

/-- The farm whose hart this is. -/
def State.farmOf (s : State) (h : Hart) : Option Farm := s.ctl.farms.find? fun f => decide (f.farmid = h.csr.farmid)

/-- The farm of a record is cluster-placed (R242, R278). -/
def FarmRecord.clustered (r : FarmRecord) : Bool := bit r.control 62

/-- The owner tag of the current hart (R295). -/
def Hart.tag (h : Hart) : BitVec 48 := field h.csr.ctxid 0 48

/-- The link between two cores of a cluster has failed (R251). -/
def State.linkDown (s : State) (cl : BitVec 5) (a b : BitVec 2) : Bool :=
  (s.clusters[cl.toNat]'cl.isLt).failedLinks.contains (if a.toNat ≤ b.toNat then (a, b) else (b, a))

/-- Bytes of another core's scratchpad are open to the current hart's apertures (R241, R251). -/
def State.apertureOpen (s : State) (core : BitVec 7) (b n : Nat) : Bool :=
  (match s.farmOf s.hart with
   | some f => f.record.clustered
   | none => false) &&
    decide (s.hart.tag ≠ 0) &&
    ((s.cores[core.toNat]'core.isLt).regions.any fun r =>
      r.tag == s.hart.tag && decide (r.offset ≤ b) && decide (b + n ≤ r.offset + r.size)) &&
    !s.linkDown (clusterOf s.hart.id) ((coreOf s.hart.id).extractLsb' 0 2) (core.extractLsb' 0 2)

/-- A crown access to the local region (R188, R189, R191, R239 to R241, R257); `none` raises ACCESS. -/
def State.localWindow (s : State) (scalar : Bool) (va : Word) (n : Nat) : Option Nat :=
  let win := (field va 32 4).toNat
  let o := (low32 va).toNat
  let core := coreOf s.hart.id
  match win with
  | 0 => if o + n ≤ scratchBytes then some (scratchBase core.toNat + o) else none
  | 1 =>
    let b := o % 0x400000
    if 4 ≤ o / 0x400000 ∨ scratchBytes < b + n then none
    else
      let t : BitVec 7 := clusterOf s.hart.id ++ BitVec.ofNat 2 (o / 0x400000)
      if t = core ∨ s.apertureOpen t b n = true then some (scratchBase t.toNat + b) else none
  | 2 => if scalar ∧ s.hart.mode = .supervisor ∧ o + n ≤ 65536 then some (scalarBase core.toNat + o) else none
  | 3 =>
    if scalar ∧ o + n ≤ 16384 then some (scalarBase core.toNat + 16384 * (placeIn s.hart.id).toNat + o) else none
  | _ => none

/-- A page that is being migrated holds the address (R338). -/
def State.migrating (s : State) (va : Word) : Bool :=
  s.migrations.any fun m => decide (m.base.toNat ≤ va.toNat) && decide (va.toNat < m.base.toNat + m.size)

/-- Where a translated address of an agent lies (R150, R258, R263). -/
def State.placeOf (s : State) (g : Agent) (t : TlbEntry) (va : Word) : Except Stop Place :=
  let pa := t.pa va
  if field t.leaf 14 2 = 2 then
    match g with
    | .vertical => .error .placement
    | .lateral => if (dramLoc (pa % 2 ^ 42)).isNone then .error (.denied none) else .ok (.away pa)
    | _ => .ok (.away pa)
  else
    match dramLoc (pa % 2 ^ 42) with
    | none => .error (.denied none)
    | some l => if g = .vertical ∧ stackOf l ≠ (homeOf s.hart.id).toNat then .error .placement else .ok (.here l)

/-- Where a posted store of the current hart is performed: where its own translation led, or, where that has been dropped
or the hart has been pre-empted since, where its page lies now (R176, R268). A page that no valid leaf maps any more leaves
it where it was, and a window that is out of reach takes no store (assumption log 107). -/
def State.storeLoc (s : State) (p : PostedStore) : Option Nat :=
  if !p.afresh then some p.loc
  else if inLocal p.va then s.localWindow true p.va p.data.length
  else
    match (s.walkFrom (fun _ => none) p.va 4 ((field s.hart.csr.ptbase 12 40).toNat * 4096) ⟨[], []⟩).1 with
    | .leaf e _ size =>
      if field e 14 2 = 2 then some p.loc else some ((dramLoc ((frameOf e + p.va.toNat % size) % 2 ^ 42)).getD p.loc)
    | .miss _ => some p.loc

/-- A posted store of the current hart not yet performed overlaps the bytes. -/
def State.overlaps (s : State) (p : PostedStore) (l n : Nat) : Bool :=
  (s.storeLoc p).any fun k => decide (k < l + n) && decide (l < k + p.data.length)

/-- A posted store of the current hart performed. -/
def State.performOne (s : State) (p : PostedStore) : State :=
  match s.storeLoc p with
  | some l => s.writeLoc l p.data
  | none => s

/-- Posted stores of the current hart performed in order (R100, R243). -/
def State.performStores (s : State) : State :=
  s.hart.stores.foldl State.performOne { s with hart := { s.hart with stores := [] } }

/-- A crown load before the store is still in flight: the store may not become visible (R163). -/
def Hart.holdsStore (h : Hart) (p : PostedStore) : Bool := h.convoys.any fun c => c.loads && decide (c.order < p.order)

/-- The posted stores of the current hart that no load before them holds, performed in order (R163). -/
def State.performFree (s : State) : State :=
  (s.hart.stores.filter fun p => !s.hart.holdsStore p).foldl State.performOne
    { s with hart := { s.hart with stores := s.hart.stores.filter s.hart.holdsStore } }

/-- Bytes written to a location, and the words marked poisoned where the data are bad (R331, R350). -/
def State.writeMarked (s : State) (l : Nat) (d : List Byte) (bad : Bool) : State :=
  if bad then (s.writeLoc l d).poisonLoc l d.length else s.writeLoc l d

/-- The waiting stores of the current hart's brim agent performed in order (R153). -/
def State.performLaterals (s : State) : State :=
  s.hart.laterals.foldl (fun s p => s.writeMarked p.loc p.data p.bad) { s with hart := { s.hart with laterals := [] } }

/-- The waiting vertical stores of the current hart performed in order; the lateral ones wait on (R153). -/
def State.performVerticals (s : State) : State :=
  (s.hart.laterals.filter fun p => p.vertical).foldl (fun s p => s.writeMarked p.loc p.data p.bad)
    { s with hart := { s.hart with laterals := s.hart.laterals.filter fun p => !p.vertical } }

/-- What is left of a waiting store beside `n` bytes from a location on. -/
def LateralStore.without (p : LateralStore) (l n : Nat) : List LateralStore :=
  if l < p.loc + p.data.length ∧ p.loc < l + n then
    [{ p with data := p.data.take (l - p.loc) }, { p with loc := l + n, data := p.data.drop (l + n - p.loc) }].filter fun q =>
      !q.data.isEmpty
  else [p]

/-- A store joins those that wait. Of the elements of one member in one group that write a byte only the highest is
performed there (R151). -/
def queueStore (p : LateralStore) (l : List LateralStore) : List LateralStore :=
  (l.flatMap fun q =>
    if q.order = p.order ∧ q.part = p.part ∧ q.group = p.group then q.without p.loc p.data.length else [q]) ++ [p]

/-- The stores of every hart that wait performed, since they were translated with the entries as they stood (R268, R338). A
store that a stalled load holds back is translated afresh when it is performed. -/
def State.performAll (s : State) : State :=
  s.harts.foldl (fun t h => withHart h.id (fun u => u.performFree.performLaterals.onHart fun k =>
    { k with stores := k.stores.map fun p => { p with afresh := p.afresh || !inLocal p.va } }) t) s

/-- A hart that is not stalled for replay holds a store to such an address back behind a load (R163): what drops its
translation waits for it (R268). -/
def State.storesHeld (s : State) (concerns : Word → Bool) : Bool :=
  s.harts.any fun h => !(s.stalls.any fun z => decide (z.owner = .hart h.id)) &&
    h.stores.any fun p => h.holdsStore p && !inLocal p.va && concerns p.va

/-- The current hart has a crown load in flight: no later store of its crown agents may become visible (R163). -/
def Hart.loading (h : Hart) : Bool := h.convoys.any fun c => c.loads

/-- The current hart has a chunk-acquire load in flight that an engine-owned mask governs: no later crown access is
performed before it (R152, R160 case 4). -/
def Hart.acquiring (h : Hart) : Bool :=
  h.convoys.any fun c => c.acquires.any fun g => (h.owner.getD g.toNat none).isSome

/-- A walk for an address would read an entry that one of the hart's own posted stores changes. -/
def State.walkReadsStore (s : State) (sp : Space) (va : Word) : Bool :=
  if s.hart.stores.isEmpty then false
  else
    match s.walkerOf sp.sorter.quadrant with
    | none => false
    | some w =>
      let r := s.walkFrom (s.heldPointers w (asidOf sp.ptbase)) va 4 ((field sp.ptbase 12 40).toNat * 4096) ⟨[], []⟩
      r.2.reads.any fun l => s.hart.stores.any fun p => s.overlaps p l 8

/-- A scalar access to an address needs such a walk: it reads as the agent whose access it serves, so it sees that store
(R100, R266). -/
def State.walkMeetsStore (s : State) (sp : Space) (va : Word) : Bool :=
  !((s.tlb sp.sorter).any fun t => t.hits (asidOf sp.ptbase) va) && s.walkReadsStore sp va

/-- `n` bytes of one page reached by an agent of the current hart. -/
def State.reach (s : State) (g : Agent) (need : Need) (va : Word) (n : Nat) : Except Stop Piece × State :=
  if !canonical va then (.error .nonCanonical, s)
  else if inLocal va then
    if g.isBrim then (.error .window, s)
    else
      match s.localWindow (decide (g = .scalar)) va n with
      | some l => (.ok ⟨va, n, .here l, none⟩, s)
      | none => (.error .window, s)
  else if s.migrating va then (.error .wait, s)
  else
    let own := decide (g = .scalar) && s.walkMeetsStore (s.space g) va
    if own && s.hart.loading then (.error .wait, s)
    else
    match (if own then s.performStores else s).translate (s.space g) (!g.isBrim) need va with
    | (.ok t, s1) =>
      match s1.placeOf g t va with
      | .ok p => (.ok ⟨va, n, p, some t⟩, s1)
      | .error e => (.error e, s1)
    | (.error (.invalid lvl), s1) => (.error (.invalid lvl va), s1)
    | (.error (.badEntry ea), s1) => (.error (.denied (some ea)), s1)
    | (.error _, s1) => (.error (.denied none), s1)

/-- The bytes of an access, piece by piece: one, or two when it crosses a boundary of 256 bytes, so that none crosses a
stripe of 1 KiB, a page, or a block of a request (R150, R259, R397). The finding of lowest rank decides; the lower address on a tie. -/
def State.reachAll (s : State) (g : Agent) (need : Need) (va : Word) (n : Nat) : Except Stop (List Piece) × State :=
  let first := 256 - va.toNat % 256
  if n ≤ first then
    match s.reach g need va n with
    | (.ok p, s1) => (.ok [p], s1)
    | (.error e, s1) => (.error e, s1)
  else
    match s.reach g need va first with
    | (r1, s1) =>
      match s1.reach g need (va + BitVec.ofNat 64 first) (n - first) with
      | (r2, s2) =>
        match r1, r2 with
        | .ok p, .ok q => (.ok [p, q], s2)
        | .error e, .ok _ => (.error e, s2)
        | .ok _, .error e => (.error e, s2)
        | .error e, .error f => (.error (if f.rank < e.rank then f else e), s2)

/-! ## Other packages (R321, R397, R399) -/

/-- A request is a write. -/
def RemoteKind.isWrite : RemoteKind → Bool
  | .write _ _ => true
  | _ => false

/-- A request is a read. -/
def RemoteKind.isRead : RemoteKind → Bool
  | .read _ => true
  | _ => false

/-- A write of that owner's agent to the 32-byte word, older than number `base`, is still without its answer: part 0 is
the scalar agent's. -/
def State.writePending (s : State) (o : Owner) (part base pa : Nat) : Bool :=
  s.remote.any fun r => decide (r.owner = o) && decide (r.part = 0 ↔ part = 0) && decide (r.id < base) &&
    decide (r.pa / 32 = pa / 32) && decide (r.status = .sent) && r.kind.isWrite

/-- A request sent, with its first status: a packet that finds no route has failed at once (R400). -/
def State.requestAs (s : State) (o : Owner) (part pa : Nat) (va : Word) (k : RemoteKind) (st : RemoteStatus) : State :=
  { s with
    remote := s.remote ++ [⟨s.nextRemote, o, s.requesterOf o, pa, va, part, k, st⟩]
    nextRemote := s.nextRemote + 1 }

/-- A request sent. -/
def State.request (s : State) (o : Owner) (pa : Nat) (va : Word) (k : RemoteKind) : State := s.requestAs o 0 pa va k .sent

/-- The answer to a read or an atomic of another package: it is asked for once, and taken when it has come. -/
def State.remoteAsk (s : State) (o : Owner) (pa : Nat) (va : Word) (k : RemoteKind) : Except Stop (List Byte) × State :=
  match s.remote.find? fun r => decide (r.owner = o) && decide (r.pa = pa) && decide (r.kind = k) with
  | none => if s.writePending o 0 s.nextRemote pa then (.error .wait, s) else (.error .wait, s.request o pa va k)
  | some r =>
    let s1 := { s with remote := s.remote.filter fun q => decide (q.id ≠ r.id) }
    match r.status with
    | .sent => (.error .wait, s)
    | .answered d => (.ok d, s1)
    | .failed => (.error .remote, s1)

/-- The bytes of a 32-byte word of another package with an owner's own writes from number `base` on put over them: those
of the element group in hand, which are not performed before it commits. -/
def overlayWrites (o : Owner) (base w : Nat) (rs : List RemoteRequest) (d : List Byte) : List Byte :=
  rs.foldl (fun d r =>
    match r.kind with
    | .write bs _ =>
      if r.owner = o ∧ base ≤ r.id ∧ r.pa / 32 = w / 32 then
        tabulate d.length fun k =>
          let old := d.getD k 0
          if r.pa ≤ w + k then ((bs.getD (w + k - r.pa) none).getD old) else old
      else d
    | _ => d) d

/-! ## Spinel (R314, R400, R401) -/

/-- The position of a package in the torus, x, y and z, as PODMAP's table holds it (R401). -/
def State.podPosition (s : State) (p : Nat) : Option (Nat × Nat × Nat) :=
  (s.dramAt ((field s.pkg.podmap 12 40).toNat * 4096 + 4 * p)).map fun l =>
    let e := leNat (s.readLoc l 4)
    (e % 32, e / 2 ^ 8 % 32, e / 2 ^ 16 % 32)

/-- The directions that lead the short way round a ring of `n` from `a` to `b`: up, down, or either. -/
def ringWays (n a b : Nat) : List Bool :=
  let up := (b + n - a % n) % n
  if up = 0 then [] else if 2 * up < n then [true] else if n < 2 * up then [false] else [true, false]

/-- Off-package ports of a dimension in a direction (R400). -/
def spinelPorts (dim : Nat) (up : Bool) : List Nat :=
  match dim, up with
  | 0, false => [0, 6]
  | 0, true => [1, 7]
  | d, false => [2 * d]
  | d, true => [2 * d + 1]

/-- A packet for a position of the torus has a working first link: in dimension order, one whose link has failed passed
over (R400). -/
def State.spinelReaches (s : State) (x y z : Nat) : Bool :=
  let f := s.pkg.fabcoord
  let dims : List (Nat × Nat × Nat × Nat) :=
    [(0, (field f 24 5).toNat + 1, (field f 0 5).toNat, x), (1, (field f 32 5).toNat + 1, (field f 8 5).toNat, y),
      (2, (field f 40 5).toNat + 1, (field f 16 5).toNat, z)]
  dims.any fun d => (ringWays d.2.1 d.2.2.1 d.2.2.2).any fun up =>
    (spinelPorts d.1 up).any fun k => s.pkg.spinelUp.getLsbD k

/-- A packet for another package has a working first link. -/
def State.spinelRoute (s : State) (p : Nat) : Bool :=
  match s.podPosition p with
  | none => false
  | some (x, y, z) => s.spinelReaches x y z

/-- The next router on a packet's way in the 4×4 torus, column before row, a failed link passed over; directions are 0 and
1 for a column up and down, 2 and 3 for a row (R314, R400). -/
def torusNext (down : List (BitVec 4 × BitVec 2)) (a b : Nat) : Option Nat :=
  let col := (ringWays 4 (a % 4) (b % 4)).map fun (up : Bool) =>
    ((if up then 0 else 1 : BitVec 2), a / 4 * 4 + (a % 4 + if up then 1 else 3) % 4)
  let row := (ringWays 4 (a / 4) (b / 4)).map fun (up : Bool) =>
    ((if up then 2 else 3 : BitVec 2), (a / 4 + if up then 1 else 3) % 4 * 4 + a % 4)
  ((col ++ row).find? fun m => !down.contains (BitVec.ofNat 4 a, m.1)).map Prod.snd

/-- A packet reaches a stack within so many hops. -/
def torusReaches (down : List (BitVec 4 × BitVec 2)) : Nat → Nat → Nat → Bool
  | 0, a, b => decide (a = b)
  | k + 1, a, b =>
    if a = b then true
    else
      match torusNext down a b with
      | some c => torusReaches down k c b
      | none => false

/-- A lateral access of the current hart has a route to a place (R400). -/
def State.lateralRoute (s : State) (p : Place) : Bool :=
  match p with
  | .here l => torusReaches s.torusDown 4 (homeOf s.hart.id).toNat (stackOf l)
  | .away pa => s.spinelRoute (pa / 2 ^ 42)

/-- An address of a store that failed kept by the hart that made it; the first one stands (R399). -/
def State.noteFailed (s : State) (o : Owner) (va : Word) : State :=
  match o with
  | .hart h => withHart h (fun t => t.onHart fun k => { k with failedStore := k.failedStore.or (some va) }) s
  | .brim h => withHart h (fun t => t.onHart fun k => { k with failedStore := k.failedStore.or (some va) }) s
  | _ => s

/-- The EVENT of a failed request (R399). -/
def State.reportFailed (s : State) (subject : BitVec 32) (pa : Nat) : State := s.report 0x0023 subject [BitVec.ofNat 64 pa]

/-- A place as a physical address. -/
def State.placePa (s : State) (p : Place) : Nat :=
  match p with
  | .here l => s.homedPa l
  | .away pa => pa

/-- The answer to a vector agent's read of one 32-byte word of another package (R397). It is asked for once by each member
of a group, and its answer stays until the group is done. -/
def State.wordAsk (s : State) (o : Owner) (part base w : Nat) (va : Word) : Except Stop (List Byte) × State :=
  match s.remote.find? fun r => decide (r.owner = o) && decide (r.part = part) && decide (r.pa = w) &&
      decide (r.kind = .read 32) with
  | none => if s.writePending o part base w then (.error .wait, s) else (.error .wait, s.requestAs o part w va (.read 32) .sent)
  | some r =>
    match r.status with
    | .sent => (.error .wait, s)
    | .answered d => (.ok (overlayWrites o base w s.remote d), s)
    | .failed => (.error .remote, s)

/-- The bytes from an address on read from the words of another package that hold them; a wait goes before a failure. -/
def State.wordsAsk (s : State) (o : Owner) (part base pa n : Nat) (va : Word) : Except Stop (List Byte) × State :=
  let words := tabulate ((pa + n - 1) / 32 - pa / 32 + 1) fun k => (pa / 32 + k) * 32
  let r := words.foldl (fun (a : Except Stop (List Byte) × State) w =>
    match a.1, a.2.wordAsk o part base w va with
    | .ok d, (.ok e, t) => (.ok (d ++ e), t)
    | .ok _, (.error e, t) => (.error e, t)
    | .error .wait, (_, t) => (.error .wait, t)
    | .error _, (.error .wait, t) => (.error .wait, t)
    | .error e, (_, t) => (.error e, t)) (.ok [], s)
  match r with
  | (.ok d, t) => (.ok ((d.drop (pa % 32)).take n), t)
  | r => r

/-! ## Reading and writing pieces -/

/-- Which member of which group an access of a convoy belongs to: its number counted from 1, the first number of the
requests that the group makes, and the group; part 0 is the scalar agent's. -/
structure Turn where
  part : Nat
  base : Nat
  group : Nat
  deriving DecidableEq, Repr

/-- A and D of a piece's page set before the access (R154, R264). -/
def State.markPiece (s : State) (g : Agent) (write : Bool) (p : Piece) : State :=
  match p.page with
  | some t => s.markUsed (s.space g) write t
  | none => s

/-- The owner of the current hart's requests. -/
def State.ownerOf (s : State) (g : Agent) : Owner := if g.isBrim then .brim s.hart.id else .hart s.hart.id

/-- The bytes of a piece read, and whether local memory met an error there. A vertical access follows the vertical stores
before it (R153). -/
def State.readPiece (s : State) (g : Agent) (q : Turn) (p : Piece) : Except Stop (List Byte × Bool) × State :=
  if g = .lateral ∧ s.lateralRoute p.place = false then
    (.error .remote, s.reportFailed (s.hart.id.setWidth 32) (s.placePa p.place))
  else
  match p.place with
  | .here l =>
    let s1 := (if g = .vertical then s.performVerticals else s).markPiece g false p
    (.ok (s1.readLoc l p.len, s1.readFails l p.len), s1)
  | .away pa =>
    match (if g = .scalar then s.remoteAsk (s.ownerOf g) pa p.va (.read p.len)
      else s.wordsAsk (s.ownerOf g) q.part q.base pa p.len p.va) with
    | (.ok d, s1) => (.ok (d, false), s1.markPiece g false p)
    | (.error e, s1) => (.error e, s1)

/-- The bytes of every piece read. -/
def readPieces (g : Agent) (q : Turn) : List Piece → State → Except Stop (List Byte × Bool) × State
  | [], s => (.ok ([], false), s)
  | p :: ps, s =>
    match s.readPiece g q p with
    | (.error e, s1) => (.error e, s1)
    | (.ok (d, b), s1) =>
      match readPieces g q ps s1 with
      | (.error e, s2) => (.error e, s2)
      | (.ok (d2, b2), s2) => (.ok (d ++ d2, b || b2), s2)

/-- The error of a read piece recorded and reported. -/
def State.reportPiece (s : State) (p : Piece) : State :=
  match p.place with
  | .here l => s.reportErrors (some s.hart.id) l p.len
  | .away _ => s

/-- Bytes of a piece written. `bad` marks the words it writes poisoned (R331). A brim store waits while waits are left
open (R153, R317). A lateral one without a route fails (R399, R400). -/
def State.writePiece (s : State) (g : Agent) (q : Turn) (bad : Bool) (order : Nat) (p : Piece) (d : List Byte) : State :=
  let s1 := s.markPiece g true p
  if g = .lateral ∧ s.lateralRoute p.place = false then
    (s1.noteFailed (s1.ownerOf g) p.va).reportFailed (s1.hart.id.setWidth 32) (s1.placePa p.place)
  else
  match p.place with
  | .here l =>
    if g.isBrim ∧ s.lag = true then
      s1.onHart fun h => { h with laterals := queueStore ⟨l, d, bad, order, q.part, q.group, decide (g = .vertical)⟩ h.laterals }
    else s1.writeMarked l d bad
  | .away pa => s1.requestAs (s1.ownerOf g) q.part pa p.va (.write (d.map some) bad) .sent

/-- A write of the same agent to bytes of a piece in another package has no answer yet: a store there waits for it (R160,
R161, R397). -/
def State.pieceHeld (s : State) (g : Agent) (q : Turn) (p : Piece) : Bool :=
  match p.place with
  | .here _ => false
  | .away pa =>
    s.writePending (s.ownerOf g) q.part q.base pa || s.writePending (s.ownerOf g) q.part q.base (pa + p.len - 1)

/-- Bytes of every piece written. -/
def writePieces (g : Agent) (q : Turn) (bad : Bool) (order : Nat) : List Piece → List Byte → State → State
  | [], _, s => s
  | p :: ps, d, s => writePieces g q bad order ps (d.drop p.len) (s.writePiece g q bad order p (d.take p.len))

/-- Bytes of a 32-byte word with those of a write from `o` bytes into it put over them. -/
def overBytes (old : List (Option Byte)) (o : Nat) (new : List (Option Byte)) : List (Option Byte) :=
  tabulate old.length fun k => if o ≤ k then (new.getD (k - o) none).or (old.getD k none) else old.getD k none

/-- A write cut at the boundaries of 32-byte words: the words, and the bytes written in each. -/
def cutWords (pa : Nat) (d : List (Option Byte)) : List (Nat × List (Option Byte)) :=
  tabulate ((pa + d.length - 1) / 32 - pa / 32 + 1) fun k =>
    let w := (pa / 32 + k) * 32
    (w, tabulate 32 fun i => if pa ≤ w + i then d.getD (w + i - pa) none else none)

/-- A write to a word joined to the request of the same member for that word, or added at the end. -/
def joinWrite (r : RemoteRequest) (w : Nat) (d : List (Option Byte)) (bad : Bool) : List RemoteRequest → List RemoteRequest
  | [] => [{ r with pa := w, kind := .write d bad }]
  | q :: qs =>
    match q.kind with
    | .write e b =>
      if q.pa = w ∧ q.part = r.part then { q with kind := .write (overBytes e 0 d) (b || bad) } :: qs
      else q :: joinWrite r w d bad qs
    | _ => q :: joinWrite r w d bad qs

/-- The writes that an element group made to other packages, one request for each 32-byte word of each member (R397). -/
def joinWrites (rs : List RemoteRequest) : List RemoteRequest :=
  rs.foldl (fun acc r =>
    match r.kind with
    | .write d bad => (cutWords r.pa d).foldl (fun acc c => joinWrite r c.1 c.2 bad acc) acc
    | _ => acc ++ [r]) []

/-- The requests of an owner from number `base` on joined and numbered afresh. -/
def State.joinGroup (s : State) (o : Owner) (base : Nat) : State :=
  let mine := s.remote.filter fun r => decide (r.owner = o) && decide (base ≤ r.id) && r.kind.isWrite
  if mine.isEmpty then s
  else
    let joined := joinWrites mine
    { s with
      remote := (s.remote.filter fun r => !(decide (r.owner = o) && decide (base ≤ r.id) && r.kind.isWrite)) ++
        (joined.zipIdx s.nextRemote).map fun q => { q.1 with id := q.2 }
      nextRemote := s.nextRemote + joined.length }

/-! ## Scalar accesses (R99, R100, R107, R108) -/

/-- Why a scalar instruction does not complete now. -/
inductive Halt where
  | trap (c : Cause) (val : Word)
  | stall (f : FaultInfo)
  | wait
  deriving DecidableEq, Repr

/-- The fault record of a scalar access (R270). -/
def State.scalarFault (s : State) (va : Word) (access level : Nat) : FaultInfo :=
  ⟨va, s.hart.pc, s.hart.id.setWidth 16, 0, access, noElement, 0, level, 0xFF, s.hart.csr.farmid, s.hart.csr.ptbase⟩

/-- The access bits of a fault record (R270): an indivisible update reads as well as writes. -/
def accessBits (n : Need) (atomic : Bool) : Nat :=
  (if n.r || atomic then 1 else 0) + (if n.w then 2 else 0) + (if n.x then 4 else 0) + (if atomic then 8 else 0)

/-- What a finding means for a scalar access (R99, R269). -/
def State.haltOf (s : State) (va : Word) (access : Nat) : Stop → Halt
  | .invalid lvl _ => .stall (s.scalarFault va access lvl)
  | .wait => .wait
  | _ => .trap .access va

/-- The EVENT that goes with a finding: an error in a page-table entry (R269). -/
def State.noteStop (s : State) (e : Stop) : State :=
  match e with
  | .denied (some ea) => s.reportEntry ea (some s.hart.id)
  | _ => s

/-- A walk must be waited for first: waits are left open, no held leaf translates the address, and no walk has ended
for this access (R262). -/
def State.walkPending (s : State) (va : Word) : Bool :=
  s.lag && !s.hart.walked && canonical va && !inLocal va &&
    !((s.tlb (.core (coreOf s.hart.id))).any fun t => t.hits (asidOf s.hart.csr.ptbase) va)

/-- The checks of R99 in their order, for `n` bytes that must be a multiple of `align`. `waits` says that the
instruction can wait for its walk. -/
def State.scalarReach (s : State) (waits : Bool) (need : Need) (atomic : Bool) (va : Word) (n align : Nat) :
    Except Halt Piece × State :=
  if !canonical va then (.error (.trap .access va), s)
  else if va.toNat % align ≠ 0 then (.error (.trap .misalign va), s)
  else if s.hart.acquiring then (.error .wait, s)
  else if waits && s.walkPending va then (.error .wait, s)
  else
    match s.reach .scalar need va n with
    | (.ok p, s1) => (.ok p, s1.onHart fun h => { h with walked := false })
    | (.error e, s1) => (.error (s1.haltOf va (accessBits need atomic) e), (s1.noteStop e).onHart fun h => { h with walked := false })

/-- A scalar load of `n` bytes (R98 to R100): the hart sees its own posted stores, in order. -/
def State.scalarLoad (s : State) (va : Word) (n : Nat) : Except Halt Word × State :=
  match s.scalarReach true ⟨true, false, false⟩ false va n n with
  | (.error h, s1) => (.error h, s1)
  | (.ok p, s1) =>
    match p.place with
    | .here l =>
      let s2 := (s1.markPiece .scalar false p).countAccess true l n
      let own := s2.performStores
      if own.readFails l n then (.error (.trap .access va), s2.reportErrors (some s2.hart.id) l n)
      else (.ok (wordOf (own.readLoc l n)), s2)
    | .away pa =>
      match s1.remoteAsk (.hart s1.hart.id) pa va (.read n) with
      | (.ok d, s2) => (.ok (wordOf d), s2.markPiece .scalar false p)
      | (.error .wait, s2) => (.error .wait, s2)
      | (.error _, s2) => (.error (.trap .access va), s2)

/-- A scalar store of `n` bytes (R98 to R100): posted while waits are left open or a crown load of the hart is in flight
(R163), performed at once otherwise. -/
def State.scalarStore (s : State) (waits : Bool) (va : Word) (n : Nat) (w : Word) : Except Halt Unit × State :=
  match s.scalarReach waits ⟨false, true, false⟩ false va n n with
  | (.error h, s1) => (.error h, s1)
  | (.ok p, s1) =>
    let s2 := s1.markPiece .scalar true p
    let d := bytesOf w n
    match p.place with
    | .here l =>
      let s3 := s2.countAccess true l n
      if s3.lag || s3.hart.loading then (.ok (), s3.onHart fun h => { h with stores := h.stores ++ [⟨l, d, h.issued, va, false⟩] })
      else (.ok (), s3.performStores.writeLoc l d)
    | .away pa =>
      if s2.hart.loading || s2.writePending (.hart s2.hart.id) 0 s2.nextRemote pa then (.error .wait, s1)
      else (.ok (), s2.request (.hart s2.hart.id) pa va (.write (d.map some) false))

/-- Posted stores performed before an indivisible action of the scalar agent on a word: `none` while a crown load before
it is in flight (R100, R163). -/
def State.settleStores (s : State) : Option State := if s.hart.loading then none else some s.performStores

/-- The result of an atomic (R107): the value written, or none where `cas` fails. -/
def atomicNew (op : Nat) (w : Nat) (old b expected : Word) : Option Word :=
  let sx (v : Word) : Int := if w = 4 then (low32 v).toInt else v.toInt
  let cut (v : Word) : Word := if w = 4 then zext (low32 v) else v
  match op with
  | 0 => some (cut (old + b))
  | 1 => some (cut (old &&& b))
  | 2 => some (cut (old ||| b))
  | 3 => some (cut (old ^^^ b))
  | 4 => some (cut (if sx old ≤ sx b then old else b))
  | 5 => some (cut (if sx b ≤ sx old then old else b))
  | 6 => some (cut b)
  | _ => if cut old = cut expected then some (cut b) else none

/-- The atomics that UALink carries (R107, R396). -/
def uaOp (op : Nat) : Option UaOp :=
  match op with
  | 0 => some .add
  | 6 => some .swap
  | 7 => some .cas
  | _ => none

/-- The checks of a scalar atomic alone, the one of R107 on the operations that UALink carries included. -/
def State.atomicReach (s : State) (op : Nat) (va : Word) (w : Nat) : Except Halt Piece × State :=
  match s.scalarReach true ⟨true, true, false⟩ true va w w with
  | (.error h, s1) => (.error h, s1)
  | (.ok p, s1) =>
    match p.place with
    | .here _ => (.ok p, s1)
    | .away _ => if (uaOp op).isNone then (.error (.trap .access va), s1) else (.ok p, s1)

/-- A scalar atomic of `w` bytes: one indivisible action at the word's home (R107, R108). It answers the old value. -/
def State.scalarAtomic (s : State) (op : Nat) (va : Word) (w : Nat) (b expected : Word) : Except Halt Word × State :=
  match s.scalarReach true ⟨true, true, false⟩ true va w w with
  | (.error h, s1) => (.error h, s1)
  | (.ok p, s1) =>
    match p.place with
    | .here l =>
      match (s1.markPiece .scalar true p).settleStores with
      | none => (.error .wait, s1)
      | some s2 =>
        let s3 := s2.countAccess true l w
        if s3.readFails l w then (.error (.trap .access va), s3.reportErrors (some s3.hart.id) l w)
        else
          let old := wordOf (s3.readLoc l w)
          match atomicNew op w old b expected with
          | some new => (.ok old, s3.writeLoc l (bytesOf new w))
          | none => (.ok old, s3)
    | .away pa =>
      match uaOp op with
      | none => (.error (.trap .access va), s1)
      | some u =>
        if s1.hart.loading then (.error .wait, s1)
        else
        match s1.remoteAsk (.hart s1.hart.id) pa va (.atomic u (decide (w = 8)) b expected) with
        | (.ok d, s2) => (.ok (wordOf d), s2.markPiece .scalar true p)
        | (.error .wait, s2) => (.error .wait, s2)
        | (.error _, s2) => (.error (.trap .access va), s2)

/-- The address checks of an arrival-word instruction or `wait.ne` (R195, R99). -/
def State.wordReach (s : State) (need : Need) (va : Word) (n align : Nat) : Except Halt Nat × State :=
  match s.scalarReach false need need.w va n align with
  | (.error h, s1) => (.error h, s1)
  | (.ok p, s1) =>
    match p.place with
    | .here l =>
      if scalarBase 0 ≤ l then (.error (.trap .access va), s1)
      else
        let s0 := s1.markPiece .scalar need.w p
        match (if need.w || s0.hart.stores.any fun q => s0.overlaps q l n then s0.settleStores else some s0) with
        | none => (.error .wait, s1)
        | some s2 =>
          let s3 := s2.countAccess true l n
          if s3.readFails l n then (.error (.trap .access va), s3.reportErrors (some s3.hart.id) l n)
          else (.ok l, s3)
    | .away _ => (.error (.trap .access va), s1)

end Sys2Proof.Machine
end

