-- ==== Sys2Proof/Machine/Fetch.lean ====
section
/-! DEFINITION. Fetch.lean: instruction fetch (R41, R42, R192, R264, R274), convoy starts (R75), hardware loops (R104,
R105), and how an instruction of the scalar stream completes, transfers or traps. -/

namespace Sys2Proof.Machine

/-! ## Fetch -/

/-- Why a parcel cannot be fetched. -/
inductive FetchStop where
  /-- ACCESS, at the parcel's address. -/
  | access (va : Word)
  /-- The page is invalid: the hart stalls. -/
  | stall (f : FaultInfo)
  /-- The page is being migrated. -/
  | wait
  deriving DecidableEq, Repr

/-- The block of the instruction cache that holds a location: held, or loaded now. The cache keeps 4,096 blocks of 32
bytes (R192; assumption log 10). An error in the word is reported (R389); the block holds the stored bytes (assumption
log 17). -/
def State.block (s : State) (l : Nat) : BitVec 256 × State :=
  let base := l / 32 * 32
  match s.core.icache.find? fun b => decide (b.1 = base) with
  | some b => (b.2, s)
  | none =>
    let v := BitVec.ofNat 256 (leNat (s.readLoc base 32))
    let t := s.countWord true base
    (v, (if t.readFails base 32 then t.reportErrors (some s.hart.id) base 32 else t).onCore (coreOf s.hart.id) fun k => { k with icache := ((base, v) :: k.icache).take 4096 })

/-- The fault record of a fetch (R270, R274). -/
def State.fetchFault (s : State) (addr va : Word) (level : Nat) : FaultInfo :=
  ⟨va, addr, s.hart.id.setWidth 16, 3, 4, noElement, 0, level, 0xFF, s.hart.csr.farmid, s.hart.csr.ptbase⟩

/-- A parcel of the instruction at `addr`. -/
def State.fetchParcel (s : State) (addr va : Word) : Except FetchStop (List Byte) × State :=
  if !canonical va || inLocal va then (.error (.access va), s)
  else if s.migrating va then (.error .wait, s)
  else
    match s.translate (s.space .scalar) true ⟨false, false, true⟩ va with
    | (.error (.invalid lvl), s1) => (.error (.stall (s1.fetchFault addr va lvl)), s1)
    | (.error (.badEntry ea), s1) => (.error (.access va), s1.reportEntry ea (some s1.hart.id))
    | (.error _, s1) => (.error (.access va), s1)
    | (.ok t, s1) =>
      match s1.placeOf .scalar t va with
      | .ok (.here l) =>
        let s2 := s1.markUsed (s1.space .scalar) false t
        let r := s2.block l
        let off := l % 32
        (.ok [r.1.extractLsb' (8 * off) 8, r.1.extractLsb' (8 * off + 8) 8], r.2)
      | _ => (.error (.access va), s1)

/-- `k` parcels of the instruction at `addr`, from `va` on. -/
def State.fetchParcels (s : State) (addr va : Word) : Nat → Except FetchStop (List Byte) × State
  | 0 => (.ok [], s)
  | k + 1 =>
    match s.fetchParcel addr va with
    | (.error e, s1) => (.error e, s1)
    | (.ok d, s1) =>
      match s1.fetchParcels addr (va + 2) k with
      | (.error e, s2) => (.error e, s2)
      | (.ok ds, s2) => (.ok (d ++ ds), s2)

/-- The bytes of the instruction at an address: its first parcel gives its length (R41). -/
def State.fetchInstr (s : State) (addr : Word) : Except FetchStop (List Byte) × State :=
  match s.fetchParcel addr addr with
  | (.error e, s1) => (.error e, s1)
  | (.ok d, s1) =>
    match s1.fetchParcels addr (addr + 2) (parcelLength (BitVec.ofNat 16 (leNat d)) / 2 - 1) with
    | (.error e, s2) => (.error e, s2)
    | (.ok ds, s2) => (.ok (d ++ ds), s2)

/-! ## Convoy starts (R75) -/

/-- A 32-bit word decodes as a VV, VM or VCVT instruction with C = 1; a move with C = 1 is one (R49, R75). -/
def chains (w : BitVec 32) : Bool :=
  lengthOf w == 0b110 && isVectorMajor (majorOf w) && cOf (lowOf w) == 1 &&
    (match decodeMember w with
     | .ok _ => true
     | .error .chainedMove => true
     | .error _ => false)

/-- An error that the look at the bytes before a target meets: in a page-table entry, or in a word of memory. -/
inductive Flaw where
  | entry (ea : Nat)
  | word (l : Nat)
  deriving DecidableEq, Repr

/-- What the look at the four bytes before a target finds. -/
inductive StartCheck where
  | start
  | no
  /-- The page of the target is invalid or is being migrated: the instruction that transfers stalls or waits
  (assumption log 106). -/
  | held (h : Halt)
  /-- A convoy start or not, found with errors that are reported. -/
  | flawed (ok : Bool) (fs : List Flaw)
  deriving DecidableEq, Repr

/-- The block that holds a location is read from memory, and fails there. -/
def State.blockFlaw (s : State) (l : Nat) : List Flaw :=
  let base := l / 32 * 32
  if (s.core.icache.any fun b => decide (b.1 = base)) || !s.readFails base 32 then [] else [.word base]

/-- The look at the four bytes before a target of the current hart. They are read only when they lie in the target's page;
bytes that may not be fetched make no check, since the fetch at the target meets the same fault. -/
def State.startCheck (s : State) (t : Word) : StartCheck :=
  let a := t - 4
  if t.toNat % 4096 = 0 ∨ t.toNat % 4096 = 2 ∨ canonical a = false ∨ inLocal a = true then .start
  else if s.migrating a then .held .wait
  else
    match s.translate (s.space .scalar) true ⟨false, false, true⟩ a with
    | (.error (.invalid lvl), s1) => .held (.stall (s1.fetchFault s1.hart.pc a lvl))
    | (.error (.badEntry ea), _) => .flawed true [.entry ea]
    | (.error _, _) => .start
    | (.ok e, s1) =>
      match s1.placeOf .scalar e a with
      | .ok (.here l) =>
        let s2 := s1.markUsed (s1.space .scalar) false e
        let lo := (s2.block l).1 >>> (8 * (l % 32))
        let hi := (s2.block (l + 2)).1 >>> (8 * ((l + 2) % 32))
        let ok := !chains ((hi.setWidth 16 : BitVec 16) ++ (lo.setWidth 16 : BitVec 16))
        match (s2.blockFlaw l ++ s2.blockFlaw (l + 2)).eraseDups with
        | [] => if ok then .start else .no
        | fs => .flawed ok fs
      | _ => .start

/-- An address is a convoy start for the current hart, and the look at it meets nothing else. -/
def State.convoyStart (s : State) (t : Word) : Bool := decide (s.startCheck t = .start)

/-- The four bytes before an address decode as a chained member: it is no convoy start. -/
def State.midConvoy (s : State) (t : Word) : Bool := decide (s.startCheck t = .no)

/-- The errors that a look met, reported (R269, R389). -/
def State.noteFlaws (s : State) (fs : List Flaw) : State :=
  fs.foldl (fun s f =>
    match f with
    | .entry ea => s.reportEntry ea (some s.hart.id)
    | .word l => s.reportErrors (some s.hart.id) l 32) s

/-! ## Hardware loops (R104, R105) -/

/-- The inner level first: the one with the greater LSTART, level 1 when they are equal. -/
def innerFirst (c : Csrs) : List (Fin 2) := if c.lstart[1].toNat < c.lstart[0].toNat then [0, 1] else [1, 0]

/-- An address lies in a level's body. -/
def inBody (c : Csrs) (k : Fin 2) (a : Word) : Bool :=
  decide (c.lstart[k].toNat ≤ a.toNat) && decide (a.toNat < c.lend[k].toNat)

/-- The next pc after falling through from `a` to `next`, and the loop counts (R104). -/
def countDown (a next : Word) : List (Fin 2) → Csrs → Word × Csrs
  | [], c => (next, c)
  | k :: ks, c =>
    if c.lcnt[k] ≠ 0 ∧ inBody c k a = true ∧ next = c.lend[k] then
      let n := c.lcnt[k] - 1
      let c1 := { c with lcnt := c.lcnt.set k n }
      if n ≠ 0 then (c.lstart[k], c1) else countDown a next ks c1
    else countDown a next ks c

/-- What falling through from `a` to `next` does. -/
def Csrs.fallThrough (c : Csrs) (a next : Word) : Word × Csrs := countDown a next (innerFirst c) c

/-- The address at which the current hart goes on when it falls through from `a` to `next`. -/
def State.edgeTarget (s : State) (a next : Word) : Word := (s.hart.csr.fallThrough a next).1

/-- The look at the target of a back edge that falling through from `a` to `next` takes (R75, R104). -/
def State.edge (s : State) (a next : Word) : StartCheck :=
  if s.edgeTarget a next = next then .start else s.startCheck (s.edgeTarget a next)

/-- A taken transfer from `a` to `t` cancels the levels whose body it leaves (R105). -/
def Csrs.cancel (c : Csrs) (a t : Word) : Csrs :=
  let f (k : Fin 2) : Word := if c.lcnt[k] ≠ 0 ∧ inBody c k a = true ∧ inBody c k t = false then 0 else c.lcnt[k]
  { c with lcnt := #v[f 0, f 1] }

end Sys2Proof.Machine
end

