-- ==== Sys2Proof/Machine/Flags.lean ====
section
/-! DEFINITION. Flags.lean: FPCTL's rounding mode, SAT and sticky flags (R23 to R26), and FFX (R82, R90). -/

namespace Sys2Proof.Machine

/-- FPCTL.rm. -/
def Csrs.rm (c : Csrs) : BitVec 3 := field c.fpctl 0 3

/-- FPCTL.SAT. -/
def Csrs.satBit (c : Csrs) : Bool := bit c.fpctl 3

/-- Flags ORed into FPCTL[9:5]; no flag is ever cleared (R25). -/
def Csrs.raise (c : Csrs) (f : Flags) : Csrs := { c with fpctl := c.fpctl ||| (f.setWidth 64 <<< 5) }

/-- Flags raised in the current hart. -/
def State.raise (s : State) (f : Flags) : State := s.onCsr fun c => c.raise f

/-- A write of FPCTL under its access codes: bits [9:5] and [3:0], and a reserved rm leaves rm as it is (R23, R24). -/
def fpctlWritten (old new : Word) : Word :=
  let rm := if 4 < (field new 0 3).toNat then field old 0 3 else field new 0 3
  setField (new &&& 0x3E8) 0 rm

/-- A write of FFX stores the minimum of the value and VMAX (R82, R90). -/
def ffxWritten (vmax : Nat) (new : Word) : Word := minNat new vmax

end Sys2Proof.Machine
end

