-- ==== Sys2Proof/Machine/Lanes.lean ====
section
/-! DEFINITION. Lanes.lean: what each vector instruction computes on one element: the op of its table row in R120 to
R126, R130, R142 and R144. A value of width w is a natural number below 2^w. -/

namespace Sys2Proof.Machine

/-- What every lane of a convoy knows: the element width, the floating format, the rounding mode. -/
structure Lane where
  w : Nat
  fmt : Elem
  rm : Nat
  deriving DecidableEq, Repr

/-- The op of an element-wise instruction on a, b and c. -/
abbrev LaneOp := Lane → Nat → Nat → Nat → Nat × Flags

/-- s(v): a value read as sw. -/
def Lane.s (l : Lane) (v : Nat) : Int := intOf l.w true v

/-- wrapw() of an integer. -/
def Lane.wrap (l : Lane) (i : Int) : Nat := (i % (2 ^ l.w : Int)).toNat

/-- A shift amount, taken modulo w. -/
def Lane.sh (l : Lane) (b : Nat) : Nat := b % l.w

/-- An integer result: no flag (R21). -/
def quiet (v : Nat) : Nat × Flags := (v, noFlags)

/-- Division that truncates toward zero, at any width (R94). -/
def divS (w : Nat) (a b : Nat) : Nat :=
  if b = 0 then 2 ^ w - 1
  else if intOf w true a = -(2 ^ (w - 1) : Int) ∧ intOf w true b = -1 then a
  else ((Int.tdiv (intOf w true a) (intOf w true b)) % (2 ^ w : Int)).toNat

/-- Its remainder. -/
def remS (w : Nat) (a b : Nat) : Nat :=
  if b = 0 then a
  else if intOf w true a = -(2 ^ (w - 1) : Int) ∧ intOf w true b = -1 then 0
  else ((Int.tmod (intOf w true a) (intOf w true b)) % (2 ^ w : Int)).toNat

/-- Natural division. -/
def divN (w : Nat) (a b : Nat) : Nat := if b = 0 then 2 ^ w - 1 else a / b

/-- Natural remainder. -/
def remN (a b : Nat) : Nat := if b = 0 then a else a % b

/-- The number of 1 bits among the low `n` bits of a value. -/
def ones (v : Nat) : Nat → Nat
  | 0 => 0
  | n + 1 => v % 2 + ones (v / 2) n

/-- Leading zero bits of a value of `w` bits. -/
def leadingZeros (w v : Nat) : Nat := if v = 0 then w else w - 1 - v.log2

/-- Trailing zero bits of a value among `n`. -/
def trailingZeros (v : Nat) : Nat → Nat
  | 0 => 0
  | n + 1 => if v % 2 = 1 then 0 else 1 + trailingZeros (v / 2) n

/-- An integer limited to a range. -/
def clampInt (v lo hi : Int) : Int := max lo (min hi v)

/-! ## VIA, VIB, VIC (R120, R121) -/

/-- vadd -/
def vaddOp : LaneOp := fun l a b _ => quiet (l.wrap (a + b))
/-- vsub -/
def vsubOp : LaneOp := fun l a b _ => quiet (l.wrap ((a : Int) - b))
/-- vmul -/
def vmulOp : LaneOp := fun l a b _ => quiet (l.wrap (a * b))
/-- vmulh -/
def vmulhOp : LaneOp := fun l a b _ => quiet (l.wrap (l.s a * l.s b / (2 ^ l.w : Int)))
/-- vmulhn -/
def vmulhnOp : LaneOp := fun l a b _ => quiet (a * b / 2 ^ l.w)
/-- vmin -/
def vminOp : LaneOp := fun l a b _ => quiet (if l.s a ≤ l.s b then a else b)
/-- vminn -/
def vminnOp : LaneOp := fun _ a b _ => quiet (min a b)
/-- vmax -/
def vmaxOp : LaneOp := fun l a b _ => quiet (if l.s b ≤ l.s a then a else b)
/-- vmaxn -/
def vmaxnOp : LaneOp := fun _ a b _ => quiet (max a b)
/-- vand -/
def vandOp : LaneOp := fun _ a b _ => quiet (a &&& b)
/-- vor -/
def vorOp : LaneOp := fun _ a b _ => quiet (a ||| b)
/-- vxor -/
def vxorOp : LaneOp := fun _ a b _ => quiet (a ^^^ b)
/-- vandn -/
def vandnOp : LaneOp := fun l a b _ => quiet (a &&& (2 ^ l.w - 1 - b))
/-- vsll -/
def vsllOp : LaneOp := fun l a b _ => quiet (a * 2 ^ l.sh b % 2 ^ l.w)
/-- vsrl -/
def vsrlOp : LaneOp := fun l a b _ => quiet (a / 2 ^ l.sh b)
/-- vsra -/
def vsraOp : LaneOp := fun l a b _ => quiet (l.wrap (l.s a / (2 ^ l.sh b : Int)))
/-- vdiv -/
def vdivOp : LaneOp := fun l a b _ => quiet (divS l.w a b)
/-- vdivn -/
def vdivnOp : LaneOp := fun l a b _ => quiet (divN l.w a b)
/-- vrem -/
def vremOp : LaneOp := fun l a b _ => quiet (remS l.w a b)
/-- vremn -/
def vremnOp : LaneOp := fun _ a b _ => quiet (remN a b)
/-- vsadd -/
def vsaddOp : LaneOp := fun l a b _ =>
  quiet (l.wrap (clampInt (l.s a + l.s b) (-(2 ^ (l.w - 1) : Int)) (2 ^ (l.w - 1) - 1)))
/-- vsaddn -/
def vsaddnOp : LaneOp := fun l a b _ => quiet (min (a + b) (2 ^ l.w - 1))
/-- vssub -/
def vssubOp : LaneOp := fun l a b _ =>
  quiet (l.wrap (clampInt (l.s a - l.s b) (-(2 ^ (l.w - 1) : Int)) (2 ^ (l.w - 1) - 1)))
/-- vssubn -/
def vssubnOp : LaneOp := fun _ a b _ => quiet (a - b)

/-! ## VFA and VFB (R122, R123) -/

/-- vfadd -/
def vfaddOp : LaneOp := fun l a b _ => fAdd l.fmt l.rm a b
/-- vfsub -/
def vfsubOp : LaneOp := fun l a b _ => fSub l.fmt l.rm a b
/-- vfmul -/
def vfmulOp : LaneOp := fun l a b _ => fMul l.fmt l.rm a b
/-- vfdiv -/
def vfdivOp : LaneOp := fun l a b _ => fDiv l.fmt l.rm a b
/-- vfmin -/
def vfminOp : LaneOp := fun l a b _ => fMinmax l.fmt false a b
/-- vfmax -/
def vfmaxOp : LaneOp := fun l a b _ => fMinmax l.fmt true a b
/-- vfsgnj -/
def vfsgnjOp : LaneOp := fun l a b _ => quiet (fSgnj l.fmt 0 a b)
/-- vfsgnjn -/
def vfsgnjnOp : LaneOp := fun l a b _ => quiet (fSgnj l.fmt 1 a b)
/-- vfma -/
def vfmaOp : LaneOp := fun l a b c => fFma l.fmt l.rm false false a b c
/-- vfms -/
def vfmsOp : LaneOp := fun l a b c => fFma l.fmt l.rm false true a b c
/-- vfnma -/
def vfnmaOp : LaneOp := fun l a b c => fFma l.fmt l.rm true true a b c
/-- vfnms -/
def vfnmsOp : LaneOp := fun l a b c => fFma l.fmt l.rm true false a b c
/-- vmacc -/
def vmaccOp : LaneOp := fun l a b c => quiet (l.wrap (c + a * b))
/-- vmsac -/
def vmsacOp : LaneOp := fun l a b c => quiet (l.wrap ((c : Int) - a * b))

/-- vfscale: a × 2^s(b), rounded once; past ±5,000 every exponent overflows or underflows alike (R123). -/
def vfscaleOp : LaneOp := fun l a b _ =>
  match decodeF l.fmt a with
  | .nan => quiet l.fmt.nanBits
  | .inf _ => quiet a
  | .num neg m e =>
    if m = 0 then quiet a else roundTo l.fmt l.rm false neg m (e + clampInt (l.s b) (-5000) 5000)

/-! ## VUN (R124, R125) -/

/-- vabs -/
def vabsOp : LaneOp := fun l a _ _ => quiet (l.wrap (l.s a).natAbs)
/-- vneg -/
def vnegOp : LaneOp := fun l a _ _ => quiet (l.wrap (-(a : Int)))
/-- vnot -/
def vnotOp : LaneOp := fun l a _ _ => quiet (2 ^ l.w - 1 - a)
/-- vclz -/
def vclzOp : LaneOp := fun l a _ _ => quiet (leadingZeros l.w a)
/-- vpopc -/
def vpopcOp : LaneOp := fun l a _ _ => quiet (ones a l.w)
/-- vfsqrt -/
def vfsqrtOp : LaneOp := fun l a _ _ => fSqrt l.fmt l.rm a
/-- vfabs -/
def vfabsOp : LaneOp := fun l a _ _ => quiet (a % l.fmt.signBit)
/-- vfneg -/
def vfnegOp : LaneOp := fun l a _ _ => quiet (a ^^^ l.fmt.signBit)
/-- vfclass: the number of the class bit of R109. -/
def vfclassOp : LaneOp := fun l a _ _ => quiet (fClass l.fmt a).log2

/-- vfround: an integral value in the same format by rm. A value other than zero that rounds to zero gives a zero of a's sign,
which the spec does not state (R28, R125; assumption log 116). -/
def vfroundOp : LaneOp := fun l a _ _ =>
  match decodeF l.fmt a with
  | .nan => quiet l.fmt.nanBits
  | .inf _ => quiet a
  | .num neg m e =>
    let r := integral l.rm neg m e
    if r.2 then quiet a else ((roundTo l.fmt l.rm false neg r.1.natAbs 0).1, flagNX)

/-- vfexpo: floor(log2 |a|) as sw. -/
def vfexpoOp : LaneOp := fun l a _ _ =>
  match decodeF l.fmt a with
  | .nan => (2 ^ (l.w - 1) - 1, flagNV)
  | .inf _ => quiet (2 ^ (l.w - 1) - 1)
  | .num _ m e => if m = 0 then (2 ^ (l.w - 1), flagDZ) else quiet (l.wrap ((m.log2 : Int) + e))

/-- vfmant: the significand, in the range 1 to below 2, with a's sign. -/
def vfmantOp : LaneOp := fun l a _ _ =>
  match decodeF l.fmt a with
  | .nan => quiet l.fmt.nanBits
  | .inf _ => quiet a
  | .num neg m _ => if m = 0 then quiet a else quiet (roundTo l.fmt 0 false neg m (-(m.log2 : Int))).1

/-! ## VX: a is the scalar (R126) -/

/-- vadd.x -/
def vaddXOp : LaneOp := fun l a b _ => quiet (l.wrap (a + b))
/-- vrsub.x -/
def vrsubXOp : LaneOp := fun l a b _ => quiet (l.wrap ((a : Int) - b))
/-- vmul.x -/
def vmulXOp : LaneOp := fun l a b _ => quiet (l.wrap (a * b))
/-- vsll.x -/
def vsllXOp : LaneOp := fun l a b _ => quiet (b * 2 ^ l.sh a % 2 ^ l.w)
/-- vfadd.x -/
def vfaddXOp : LaneOp := fun l a b _ => fAdd l.fmt l.rm a b
/-- vfrsub.x -/
def vfrsubXOp : LaneOp := fun l a b _ => fSub l.fmt l.rm a b
/-- vfmul.x -/
def vfmulXOp : LaneOp := fun l a b _ => fMul l.fmt l.rm a b
/-- vfma.x -/
def vfmaXOp : LaneOp := fun l a b c => fFma l.fmt l.rm false false a b c

/-! ## Compares (R130) -/

/-- The condition of a compare on a and b, and its flags. -/
abbrev LaneTest := Lane → Nat → Nat → Bool × Flags

/-- vcmp.eq -/
def vcmpEqTest : LaneTest := fun _ a b => (decide (a = b), noFlags)
/-- vcmp.ne -/
def vcmpNeTest : LaneTest := fun _ a b => (decide (a ≠ b), noFlags)
/-- vcmp.lt -/
def vcmpLtTest : LaneTest := fun l a b => (decide (l.s a < l.s b), noFlags)
/-- vcmp.ge -/
def vcmpGeTest : LaneTest := fun l a b => (decide (l.s b ≤ l.s a), noFlags)
/-- vcmp.ltn -/
def vcmpLtnTest : LaneTest := fun _ a b => (decide (a < b), noFlags)
/-- vcmp.gen -/
def vcmpGenTest : LaneTest := fun _ a b => (decide (b ≤ a), noFlags)

/-- a == b in a format (R109): −0 equals +0, and a NaN equals nothing. -/
def fEq (f : Elem) (a b : Nat) : Bool := eqF (decodeF f a) (decodeF f b)
/-- a < b in a format. -/
def fLt (f : Elem) (a b : Nat) : Bool := ltF (decodeF f a) (decodeF f b)
/-- a or b is NaN. -/
def fUn (f : Elem) (a b : Nat) : Bool := (decodeF f a).isNan || (decodeF f b).isNan
/-- NV of an ordering compare with a NaN (R25). -/
def orderNV (f : Elem) (a b : Nat) : Flags := if fUn f a b then flagNV else noFlags

/-- vfcmp.eq -/
def vfcmpEqTest : LaneTest := fun l a b => (fEq l.fmt a b, noFlags)
/-- vfcmp.ne -/
def vfcmpNeTest : LaneTest := fun l a b => (!fEq l.fmt a b, noFlags)
/-- vfcmp.lt -/
def vfcmpLtTest : LaneTest := fun l a b => (fLt l.fmt a b, orderNV l.fmt a b)
/-- vfcmp.le -/
def vfcmpLeTest : LaneTest := fun l a b => (fLt l.fmt a b || fEq l.fmt a b, orderNV l.fmt a b)
/-- vfcmp.gt -/
def vfcmpGtTest : LaneTest := fun l a b => (fLt l.fmt b a, orderNV l.fmt a b)
/-- vfcmp.ge -/
def vfcmpGeTest : LaneTest := fun l a b => (fLt l.fmt b a || fEq l.fmt a b, orderNV l.fmt a b)
/-- vfcmp.un -/
def vfcmpUnTest : LaneTest := fun l a b => (fUn l.fmt a b, noFlags)

/-! ## Reductions (R36, R142) and scans (R144) -/

/-- The width and format of the nodes of a floating reduction: FP32 at SEW 16 and below (R36). -/
def Lane.node (l : Lane) : Lane := if l.w ≤ 16 then ⟨32, .fp32, l.rm⟩ else l

/-- A reduction: how an element enters the tree, the node operation, and the identity. -/
structure TreeOp where
  enter : Lane → Nat → Nat
  node : Lane → Nat → Nat → Nat × Flags
  identity : Lane → Nat

/-- An element sign-extended to 64 bits. -/
def enterS (l : Lane) (v : Nat) : Nat := (l.s v % (2 ^ 64 : Int)).toNat
/-- An element zero-extended. -/
def enterN (_ : Lane) (v : Nat) : Nat := v
/-- An element of a floating reduction, widened exactly to FP32 at SEW 16 and below. -/
def enterF (l : Lane) (v : Nat) : Nat := if l.w ≤ 16 then widen32 l.fmt v else v

/-- vredsum -/
def vredsumTree : TreeOp := ⟨enterS, fun _ a b => quiet ((a + b) % 2 ^ 64), fun _ => 0⟩
/-- vredmin -/
def vredminTree : TreeOp :=
  ⟨enterS, fun _ a b => quiet (if intOf 64 true a ≤ intOf 64 true b then a else b), fun _ => 2 ^ 63 - 1⟩
/-- vredminn -/
def vredminnTree : TreeOp := ⟨enterN, fun _ a b => quiet (min a b), fun _ => 2 ^ 64 - 1⟩
/-- vredmax -/
def vredmaxTree : TreeOp :=
  ⟨enterS, fun _ a b => quiet (if intOf 64 true b ≤ intOf 64 true a then a else b), fun _ => 2 ^ 63⟩
/-- vredmaxn -/
def vredmaxnTree : TreeOp := ⟨enterN, fun _ a b => quiet (max a b), fun _ => 0⟩
/-- vfredsum -/
def vfredsumTree : TreeOp :=
  ⟨enterF, fun l a b => fAdd l.node.fmt l.rm a b, fun l => l.node.fmt.signBit⟩
/-- vfredmin -/
def vfredminTree : TreeOp := ⟨enterF, fun l a b => fMinmax l.node.fmt false a b, fun l => l.node.fmt.infBits⟩
/-- vfredmax -/
def vfredmaxTree : TreeOp :=
  ⟨enterF, fun l a b => fMinmax l.node.fmt true a b, fun l => withSign l.node.fmt true l.node.fmt.infBits⟩

/-- The op of a scan on acc and x. -/
abbrev ScanOp := Lane → Nat → Nat → Nat × Flags

/-- vscan.add -/
def vscanAddOp : ScanOp := fun l a x => quiet (l.wrap (a + x))
/-- vscan.max -/
def vscanMaxOp : ScanOp := fun l a x => quiet (if l.s x ≤ l.s a then a else x)
/-- vscan.min -/
def vscanMinOp : ScanOp := fun l a x => quiet (if l.s a ≤ l.s x then a else x)
/-- vfscan.add -/
def vfscanAddOp : ScanOp := fun l a x => fAdd l.fmt l.rm a x
/-- vfscan.max -/
def vfscanMaxOp : ScanOp := fun l a x => fMinmax l.fmt true a x
/-- vfscan.min -/
def vfscanMinOp : ScanOp := fun l a x => fMinmax l.fmt false a x

/-! ## Window operations (R55, R205) -/

/-- ⊕ of an accumulation window. -/
def windowOp (op : BitVec 5) (l : Lane) (a b : Nat) : Nat × Flags :=
  match op.toNat with
  | 0 => quiet (l.wrap (a + b))
  | 1 => quiet (if l.s a ≤ l.s b then a else b)
  | 2 => quiet (if l.s b ≤ l.s a then a else b)
  | 3 => quiet (min a b)
  | 4 => quiet (max a b)
  | 8 => fAdd l.fmt l.rm a b
  | 9 => fMinmax l.fmt false a b
  | _ => fMinmax l.fmt true a b

/-- The identity that `vwin` writes (R205). -/
def windowIdentity (op : BitVec 5) (l : Lane) : Nat :=
  match op.toNat with
  | 0 => 0
  | 1 => 2 ^ (l.w - 1) - 1
  | 2 => 2 ^ (l.w - 1)
  | 3 => 2 ^ l.w - 1
  | 4 => 0
  | 8 => l.fmt.signBit
  | 9 => if l.fmt.hasInf then l.fmt.infBits else l.fmt.maxBits
  | _ => withSign l.fmt true (if l.fmt.hasInf then l.fmt.infBits else l.fmt.maxBits)

end Sys2Proof.Machine
end

