-- ==== Sys2Proof/Machine/VecInfo.lean ====
section
/-! DEFINITION. VecInfo.lean: what each vector instruction is made of: its placement, its governing mask, its chain bit,
the element formats at which it exists, and its effect as one of a few shapes over the ops of Lanes.lean (R49, R55,
R56, R119, R137). -/

namespace Sys2Proof.Machine

/-- How a vector memory instruction addresses its elements (R148). -/
inductive MemShape where
  | unit
  | strided
  | indexed (vi : BitVec 5) (scaled bounded : Bool)
  deriving DecidableEq, Repr

/-- The shapes of vector instructions. -/
inductive VKind where
  /-- vd[i] := op(vs1[i], vs2[i], vd[i]); an absent source reads 0. -/
  | lanes (d : BitVec 5) (a b : Option (BitVec 5)) (useD : Bool) (op : LaneOp)
  /-- vd[i] := op(scalar, vs2[i], vd[i]). -/
  | lanesX (d b : BitVec 5) (useD : Bool) (op : LaneOp)
  | ident (d : BitVec 5)
  | iota (d ms : BitVec 5)
  | cvt (d a : BitVec 5) (dst src : BitVec 4)
  | cmp (m a b : BitVec 5) (test : LaneTest)
  | slideUp (d a : BitVec 5)
  | slideDown (d a : BitVec 5)
  | perm (d a b : BitVec 5)
  | compress (d a : BitVec 5)
  | expand (d a : BitVec 5)
  | conf (d a : BitVec 5)
  | sparse (d a : BitVec 5)
  | reduce (x a : BitVec 5) (tree : TreeOp)
  | scan (d a : BitVec 5) (op : ScanOp)
  | recur (d a b : BitVec 5)
  | dup (d : BitVec 5)
  | extract (x a : BitVec 5)
  | insert (d : BitVec 5)
  | copy (d a : BitVec 5)
  | merge (d a b : BitVec 5)
  /-- vmovcb: crown `a` to brim `d`. -/
  | toBrim (d a : BitVec 5)
  /-- vmovbc: brim `a` to crown `d`. -/
  | toCrown (d a : BitVec 5)
  | load (d : BitVec 5) (agent : Agent) (shape : MemShape)
  | store (v : BitVec 5) (agent : Agent) (shape : MemShape)
  | windowOpen (op : BitVec 5)
  | windowAdd (a b : BitVec 5)
  | windowMerge
  | windowDrop

/-- A vector instruction taken apart. -/
structure VInfo where
  /-- P = 1: it runs in the brim. -/
  brim : Bool
  g : BitVec 3
  c : Bool
  /-- It is an instruction when the VCFG in force selects that format (R119, R137). -/
  ok : Elem → Bool
  kind : VKind

/-- Every SEW. -/
def anySew (_ : Elem) : Bool := true

/-- Every SEW but 4. -/
def notSew4 (e : Elem) : Bool := decide (e ≠ .e2m1)

/-- Every SEW but 4 and 8. -/
def notSew8 (e : Elem) : Bool := decide (8 < e.width)

/-- The vector register fields of a shape, which the declared count bounds (R43). -/
def VKind.named : VKind → List Nat
  | .lanes d a b _ _ => d.toNat :: (a.toList ++ b.toList).map BitVec.toNat
  | .lanesX d b _ _ => [d.toNat, b.toNat]
  | .ident d => [d.toNat]
  | .iota d _ => [d.toNat]
  | .cvt d a _ _ => [d.toNat, a.toNat]
  | .cmp _ a b _ => [a.toNat, b.toNat]
  | .slideUp d a => [d.toNat, a.toNat]
  | .slideDown d a => [d.toNat, a.toNat]
  | .perm d a b => [d.toNat, a.toNat, b.toNat]
  | .compress d a => [d.toNat, a.toNat]
  | .expand d a => [d.toNat, a.toNat]
  | .conf d a => [d.toNat, a.toNat]
  | .sparse d a => [d.toNat, d.toNat + 1, a.toNat]
  | .reduce _ a _ => [a.toNat]
  | .scan d a _ => [d.toNat, a.toNat]
  | .recur d a b => [d.toNat, a.toNat, b.toNat]
  | .dup d => [d.toNat]
  | .extract _ a => [a.toNat]
  | .insert d => [d.toNat]
  | .copy d a => [d.toNat, a.toNat]
  | .merge d a b => [d.toNat, a.toNat, b.toNat]
  | .toBrim d a => [d.toNat, a.toNat]
  | .toCrown d a => [d.toNat, a.toNat]
  | .load d _ (.indexed vi _ _) => [d.toNat, vi.toNat]
  | .load d _ _ => [d.toNat]
  | .store v _ (.indexed vi _ _) => [v.toNat, vi.toNat]
  | .store v _ _ => [v.toNat]
  | .windowAdd a b => [a.toNat, b.toNat]
  | .windowOpen _ => []
  | .windowMerge => []
  | .windowDrop => []

/-- The vector registers that a shape writes, in the bank that it writes. -/
def VKind.writes : VKind → List Nat
  | .lanes d _ _ _ _ => [d.toNat]
  | .lanesX d _ _ _ => [d.toNat]
  | .ident d => [d.toNat]
  | .iota d _ => [d.toNat]
  | .cvt d _ _ _ => [d.toNat]
  | .slideUp d _ => [d.toNat]
  | .slideDown d _ => [d.toNat]
  | .perm d _ _ => [d.toNat]
  | .compress d _ => [d.toNat]
  | .expand d _ => [d.toNat]
  | .conf d _ => [d.toNat]
  | .sparse d _ => [d.toNat, d.toNat + 1]
  | .scan d _ _ => [d.toNat]
  | .recur d _ _ => [d.toNat]
  | .dup d => [d.toNat]
  | .insert d => [d.toNat]
  | .copy d _ => [d.toNat]
  | .merge d _ _ => [d.toNat]
  | .toBrim d _ => [d.toNat]
  | .toCrown d _ => [d.toNat]
  | .load d _ _ => [d.toNat]
  | _ => []

/-- The mask that a shape writes. -/
def VKind.writesMask : VKind → Option (BitVec 5)
  | .cmp m _ _ _ => some m
  | _ => none

/-- The mask that a shape reads beside its governing mask. -/
def VKind.readsMask : VKind → Option (BitVec 5)
  | .iota _ ms => some ms
  | _ => none

/-- The x register that a shape writes when its convoy retires (R78). -/
def VKind.writesX : VKind → Option (BitVec 5)
  | .reduce x _ _ => some x
  | .extract x _ => some x
  | _ => none

/-- A load member (R82). -/
def VKind.isLoad : VKind → Bool
  | .load _ _ _ => true
  | _ => false

/-- The source register of a member of the forward-reading class (R77). -/
def VKind.forward : VKind → Option Nat
  | .slideDown _ a => some a.toNat
  | .perm _ a _ => some a.toNat
  | .compress _ a => some a.toNat
  | .extract _ a => some a.toNat
  | _ => none

/-- The shape's vd and vs1 fields must differ: every VPERM instruction, and vd+1 of `vsprs` (R138). -/
def VKind.overlap : VKind → Bool
  | .slideUp d a => d == a
  | .slideDown d a => d == a
  | .perm d a _ => d == a
  | .compress d a => d == a
  | .expand d a => d == a
  | .conf d a => d == a
  | .sparse d a => d == a || decide (d.toNat + 1 = a.toNat)
  | _ => false

/-- An instruction that forms a convoy of its own (R146, R204). -/
def VKind.alone : VKind → Bool
  | .toBrim _ _ => true
  | .toCrown _ _ => true
  | .windowOpen _ => true
  | .windowMerge => true
  | .windowDrop => true
  | _ => false

/-- A window instruction (R204). -/
def VKind.window : VKind → Bool
  | .windowOpen _ => true
  | .windowAdd _ _ => true
  | .windowMerge => true
  | .windowDrop => true
  | _ => false

/-- The bank of a placement bit. -/
def isBrim (p : BitVec 1) : Bool := p == 1

/-- The agent of a plain access: vertical in the brim (R149). -/
def plainAgent (p : BitVec 1) : Agent := if p = 1 then .vertical else .vector

/-- vadd -/
def vaddInfo (p : BitVec 1) (d a b : BitVec 5) (g : BitVec 3) (c : BitVec 1) : VInfo :=
  ⟨isBrim p, g, c == 1, notSew4, .lanes d (some a) (some b) false vaddOp⟩
/-- vsub -/
def vsubInfo (p : BitVec 1) (d a b : BitVec 5) (g : BitVec 3) (c : BitVec 1) : VInfo :=
  ⟨isBrim p, g, c == 1, notSew4, .lanes d (some a) (some b) false vsubOp⟩
/-- vmul -/
def vmulInfo (p : BitVec 1) (d a b : BitVec 5) (g : BitVec 3) (c : BitVec 1) : VInfo :=
  ⟨isBrim p, g, c == 1, notSew4, .lanes d (some a) (some b) false vmulOp⟩
/-- vmulh -/
def vmulhInfo (p : BitVec 1) (d a b : BitVec 5) (g : BitVec 3) (c : BitVec 1) : VInfo :=
  ⟨isBrim p, g, c == 1, notSew4, .lanes d (some a) (some b) false vmulhOp⟩
/-- vmulhn -/
def vmulhnInfo (p : BitVec 1) (d a b : BitVec 5) (g : BitVec 3) (c : BitVec 1) : VInfo :=
  ⟨isBrim p, g, c == 1, notSew4, .lanes d (some a) (some b) false vmulhnOp⟩
/-- vmin -/
def vminInfo (p : BitVec 1) (d a b : BitVec 5) (g : BitVec 3) (c : BitVec 1) : VInfo :=
  ⟨isBrim p, g, c == 1, notSew4, .lanes d (some a) (some b) false vminOp⟩
/-- vminn -/
def vminnInfo (p : BitVec 1) (d a b : BitVec 5) (g : BitVec 3) (c : BitVec 1) : VInfo :=
  ⟨isBrim p, g, c == 1, notSew4, .lanes d (some a) (some b) false vminnOp⟩
/-- vmax -/
def vmaxInfo (p : BitVec 1) (d a b : BitVec 5) (g : BitVec 3) (c : BitVec 1) : VInfo :=
  ⟨isBrim p, g, c == 1, notSew4, .lanes d (some a) (some b) false vmaxOp⟩
/-- vmaxn -/
def vmaxnInfo (p : BitVec 1) (d a b : BitVec 5) (g : BitVec 3) (c : BitVec 1) : VInfo :=
  ⟨isBrim p, g, c == 1, notSew4, .lanes d (some a) (some b) false vmaxnOp⟩
/-- vand -/
def vandInfo (p : BitVec 1) (d a b : BitVec 5) (g : BitVec 3) (c : BitVec 1) : VInfo :=
  ⟨isBrim p, g, c == 1, anySew, .lanes d (some a) (some b) false vandOp⟩
/-- vor -/
def vorInfo (p : BitVec 1) (d a b : BitVec 5) (g : BitVec 3) (c : BitVec 1) : VInfo :=
  ⟨isBrim p, g, c == 1, anySew, .lanes d (some a) (some b) false vorOp⟩
/-- vxor -/
def vxorInfo (p : BitVec 1) (d a b : BitVec 5) (g : BitVec 3) (c : BitVec 1) : VInfo :=
  ⟨isBrim p, g, c == 1, anySew, .lanes d (some a) (some b) false vxorOp⟩
/-- vsll -/
def vsllInfo (p : BitVec 1) (d a b : BitVec 5) (g : BitVec 3) (c : BitVec 1) : VInfo :=
  ⟨isBrim p, g, c == 1, notSew4, .lanes d (some a) (some b) false vsllOp⟩
/-- vsrl -/
def vsrlInfo (p : BitVec 1) (d a b : BitVec 5) (g : BitVec 3) (c : BitVec 1) : VInfo :=
  ⟨isBrim p, g, c == 1, notSew4, .lanes d (some a) (some b) false vsrlOp⟩
/-- vsra -/
def vsraInfo (p : BitVec 1) (d a b : BitVec 5) (g : BitVec 3) (c : BitVec 1) : VInfo :=
  ⟨isBrim p, g, c == 1, notSew4, .lanes d (some a) (some b) false vsraOp⟩
/-- vandn -/
def vandnInfo (p : BitVec 1) (d a b : BitVec 5) (g : BitVec 3) (c : BitVec 1) : VInfo :=
  ⟨isBrim p, g, c == 1, anySew, .lanes d (some a) (some b) false vandnOp⟩
/-- vdiv -/
def vdivInfo (p : BitVec 1) (d a b : BitVec 5) (g : BitVec 3) (c : BitVec 1) : VInfo :=
  ⟨isBrim p, g, c == 1, notSew4, .lanes d (some a) (some b) false vdivOp⟩
/-- vdivn -/
def vdivnInfo (p : BitVec 1) (d a b : BitVec 5) (g : BitVec 3) (c : BitVec 1) : VInfo :=
  ⟨isBrim p, g, c == 1, notSew4, .lanes d (some a) (some b) false vdivnOp⟩
/-- vrem -/
def vremInfo (p : BitVec 1) (d a b : BitVec 5) (g : BitVec 3) (c : BitVec 1) : VInfo :=
  ⟨isBrim p, g, c == 1, notSew4, .lanes d (some a) (some b) false vremOp⟩
/-- vremn -/
def vremnInfo (p : BitVec 1) (d a b : BitVec 5) (g : BitVec 3) (c : BitVec 1) : VInfo :=
  ⟨isBrim p, g, c == 1, notSew4, .lanes d (some a) (some b) false vremnOp⟩
/-- vsadd -/
def vsaddInfo (p : BitVec 1) (d a b : BitVec 5) (g : BitVec 3) (c : BitVec 1) : VInfo :=
  ⟨isBrim p, g, c == 1, notSew4, .lanes d (some a) (some b) false vsaddOp⟩
/-- vsaddn -/
def vsaddnInfo (p : BitVec 1) (d a b : BitVec 5) (g : BitVec 3) (c : BitVec 1) : VInfo :=
  ⟨isBrim p, g, c == 1, notSew4, .lanes d (some a) (some b) false vsaddnOp⟩
/-- vssub -/
def vssubInfo (p : BitVec 1) (d a b : BitVec 5) (g : BitVec 3) (c : BitVec 1) : VInfo :=
  ⟨isBrim p, g, c == 1, notSew4, .lanes d (some a) (some b) false vssubOp⟩
/-- vssubn -/
def vssubnInfo (p : BitVec 1) (d a b : BitVec 5) (g : BitVec 3) (c : BitVec 1) : VInfo :=
  ⟨isBrim p, g, c == 1, notSew4, .lanes d (some a) (some b) false vssubnOp⟩
/-- vfadd -/
def vfaddInfo (p : BitVec 1) (d a b : BitVec 5) (g : BitVec 3) (c : BitVec 1) : VInfo :=
  ⟨isBrim p, g, c == 1, anySew, .lanes d (some a) (some b) false vfaddOp⟩
/-- vfsub -/
def vfsubInfo (p : BitVec 1) (d a b : BitVec 5) (g : BitVec 3) (c : BitVec 1) : VInfo :=
  ⟨isBrim p, g, c == 1, anySew, .lanes d (some a) (some b) false vfsubOp⟩
/-- vfmul -/
def vfmulInfo (p : BitVec 1) (d a b : BitVec 5) (g : BitVec 3) (c : BitVec 1) : VInfo :=
  ⟨isBrim p, g, c == 1, anySew, .lanes d (some a) (some b) false vfmulOp⟩
/-- vfdiv -/
def vfdivInfo (p : BitVec 1) (d a b : BitVec 5) (g : BitVec 3) (c : BitVec 1) : VInfo :=
  ⟨isBrim p, g, c == 1, anySew, .lanes d (some a) (some b) false vfdivOp⟩
/-- vfmin -/
def vfminInfo (p : BitVec 1) (d a b : BitVec 5) (g : BitVec 3) (c : BitVec 1) : VInfo :=
  ⟨isBrim p, g, c == 1, anySew, .lanes d (some a) (some b) false vfminOp⟩
/-- vfmax -/
def vfmaxInfo (p : BitVec 1) (d a b : BitVec 5) (g : BitVec 3) (c : BitVec 1) : VInfo :=
  ⟨isBrim p, g, c == 1, anySew, .lanes d (some a) (some b) false vfmaxOp⟩
/-- vfsgnj -/
def vfsgnjInfo (p : BitVec 1) (d a b : BitVec 5) (g : BitVec 3) (c : BitVec 1) : VInfo :=
  ⟨isBrim p, g, c == 1, anySew, .lanes d (some a) (some b) false vfsgnjOp⟩
/-- vfsgnjn -/
def vfsgnjnInfo (p : BitVec 1) (d a b : BitVec 5) (g : BitVec 3) (c : BitVec 1) : VInfo :=
  ⟨isBrim p, g, c == 1, anySew, .lanes d (some a) (some b) false vfsgnjnOp⟩
/-- vfma -/
def vfmaInfo (p : BitVec 1) (d a b : BitVec 5) (g : BitVec 3) (c : BitVec 1) : VInfo :=
  ⟨isBrim p, g, c == 1, anySew, .lanes d (some a) (some b) true vfmaOp⟩
/-- vfms -/
def vfmsInfo (p : BitVec 1) (d a b : BitVec 5) (g : BitVec 3) (c : BitVec 1) : VInfo :=
  ⟨isBrim p, g, c == 1, anySew, .lanes d (some a) (some b) true vfmsOp⟩
/-- vfnma -/
def vfnmaInfo (p : BitVec 1) (d a b : BitVec 5) (g : BitVec 3) (c : BitVec 1) : VInfo :=
  ⟨isBrim p, g, c == 1, anySew, .lanes d (some a) (some b) true vfnmaOp⟩
/-- vfnms -/
def vfnmsInfo (p : BitVec 1) (d a b : BitVec 5) (g : BitVec 3) (c : BitVec 1) : VInfo :=
  ⟨isBrim p, g, c == 1, anySew, .lanes d (some a) (some b) true vfnmsOp⟩
/-- vmacc -/
def vmaccInfo (p : BitVec 1) (d a b : BitVec 5) (g : BitVec 3) (c : BitVec 1) : VInfo :=
  ⟨isBrim p, g, c == 1, notSew4, .lanes d (some a) (some b) true vmaccOp⟩
/-- vmsac -/
def vmsacInfo (p : BitVec 1) (d a b : BitVec 5) (g : BitVec 3) (c : BitVec 1) : VInfo :=
  ⟨isBrim p, g, c == 1, notSew4, .lanes d (some a) (some b) true vmsacOp⟩
/-- vfscale -/
def vfscaleInfo (p : BitVec 1) (d a b : BitVec 5) (g : BitVec 3) (c : BitVec 1) : VInfo :=
  ⟨isBrim p, g, c == 1, anySew, .lanes d (some a) (some b) false vfscaleOp⟩
/-- vabs -/
def vabsInfo (p : BitVec 1) (d a : BitVec 5) (g : BitVec 3) (c : BitVec 1) : VInfo :=
  ⟨isBrim p, g, c == 1, notSew4, .lanes d (some a) none false vabsOp⟩
/-- vneg -/
def vnegInfo (p : BitVec 1) (d a : BitVec 5) (g : BitVec 3) (c : BitVec 1) : VInfo :=
  ⟨isBrim p, g, c == 1, notSew4, .lanes d (some a) none false vnegOp⟩
/-- vnot -/
def vnotInfo (p : BitVec 1) (d a : BitVec 5) (g : BitVec 3) (c : BitVec 1) : VInfo :=
  ⟨isBrim p, g, c == 1, anySew, .lanes d (some a) none false vnotOp⟩
/-- vclz -/
def vclzInfo (p : BitVec 1) (d a : BitVec 5) (g : BitVec 3) (c : BitVec 1) : VInfo :=
  ⟨isBrim p, g, c == 1, notSew4, .lanes d (some a) none false vclzOp⟩
/-- vpopc -/
def vpopcInfo (p : BitVec 1) (d a : BitVec 5) (g : BitVec 3) (c : BitVec 1) : VInfo :=
  ⟨isBrim p, g, c == 1, notSew4, .lanes d (some a) none false vpopcOp⟩
/-- vid -/
def vidInfo (p : BitVec 1) (d : BitVec 5) (g : BitVec 3) (c : BitVec 1) : VInfo :=
  ⟨isBrim p, g, c == 1, notSew4, .ident d⟩
/-- viota -/
def viotaInfo (p : BitVec 1) (d m : BitVec 5) (g : BitVec 3) (c : BitVec 1) : VInfo :=
  ⟨isBrim p, g, c == 1, notSew4, .iota d m⟩
/-- vfsqrt -/
def vfsqrtInfo (p : BitVec 1) (d a : BitVec 5) (g : BitVec 3) (c : BitVec 1) : VInfo :=
  ⟨isBrim p, g, c == 1, anySew, .lanes d (some a) none false vfsqrtOp⟩
/-- vfabs -/
def vfabsInfo (p : BitVec 1) (d a : BitVec 5) (g : BitVec 3) (c : BitVec 1) : VInfo :=
  ⟨isBrim p, g, c == 1, anySew, .lanes d (some a) none false vfabsOp⟩
/-- vfneg -/
def vfnegInfo (p : BitVec 1) (d a : BitVec 5) (g : BitVec 3) (c : BitVec 1) : VInfo :=
  ⟨isBrim p, g, c == 1, anySew, .lanes d (some a) none false vfnegOp⟩
/-- vfclass -/
def vfclassInfo (p : BitVec 1) (d a : BitVec 5) (g : BitVec 3) (c : BitVec 1) : VInfo :=
  ⟨isBrim p, g, c == 1, anySew, .lanes d (some a) none false vfclassOp⟩
/-- vfround -/
def vfroundInfo (p : BitVec 1) (d a : BitVec 5) (g : BitVec 3) (c : BitVec 1) : VInfo :=
  ⟨isBrim p, g, c == 1, anySew, .lanes d (some a) none false vfroundOp⟩
/-- vfexpo -/
def vfexpoInfo (p : BitVec 1) (d a : BitVec 5) (g : BitVec 3) (c : BitVec 1) : VInfo :=
  ⟨isBrim p, g, c == 1, anySew, .lanes d (some a) none false vfexpoOp⟩
/-- vfmant -/
def vfmantInfo (p : BitVec 1) (d a : BitVec 5) (g : BitVec 3) (c : BitVec 1) : VInfo :=
  ⟨isBrim p, g, c == 1, anySew, .lanes d (some a) none false vfmantOp⟩
/-- vaddX -/
def vaddXInfo (p : BitVec 1) (d _a b : BitVec 5) (g : BitVec 3) (c : BitVec 1) : VInfo :=
  ⟨isBrim p, g, c == 1, notSew4, .lanesX d b false vaddXOp⟩
/-- vrsubX -/
def vrsubXInfo (p : BitVec 1) (d _a b : BitVec 5) (g : BitVec 3) (c : BitVec 1) : VInfo :=
  ⟨isBrim p, g, c == 1, notSew4, .lanesX d b false vrsubXOp⟩
/-- vmulX -/
def vmulXInfo (p : BitVec 1) (d _a b : BitVec 5) (g : BitVec 3) (c : BitVec 1) : VInfo :=
  ⟨isBrim p, g, c == 1, notSew4, .lanesX d b false vmulXOp⟩
/-- vsllX -/
def vsllXInfo (p : BitVec 1) (d _a b : BitVec 5) (g : BitVec 3) (c : BitVec 1) : VInfo :=
  ⟨isBrim p, g, c == 1, notSew4, .lanesX d b false vsllXOp⟩
/-- vfaddX -/
def vfaddXInfo (p : BitVec 1) (d _a b : BitVec 5) (g : BitVec 3) (c : BitVec 1) : VInfo :=
  ⟨isBrim p, g, c == 1, anySew, .lanesX d b false vfaddXOp⟩
/-- vfrsubX -/
def vfrsubXInfo (p : BitVec 1) (d _a b : BitVec 5) (g : BitVec 3) (c : BitVec 1) : VInfo :=
  ⟨isBrim p, g, c == 1, anySew, .lanesX d b false vfrsubXOp⟩
/-- vfmulX -/
def vfmulXInfo (p : BitVec 1) (d _a b : BitVec 5) (g : BitVec 3) (c : BitVec 1) : VInfo :=
  ⟨isBrim p, g, c == 1, anySew, .lanesX d b false vfmulXOp⟩
/-- vfmaX -/
def vfmaXInfo (p : BitVec 1) (d _a b : BitVec 5) (g : BitVec 3) (c : BitVec 1) : VInfo :=
  ⟨isBrim p, g, c == 1, anySew, .lanesX d b true vfmaXOp⟩
/-- vcvt -/
def vcvtInfo (p : BitVec 1) (dst src : BitVec 4) (d a : BitVec 5) (g : BitVec 3) (c : BitVec 1) : VInfo :=
  ⟨isBrim p, g, c == 1, anySew, .cvt d a dst src⟩
/-- vcmpEq -/
def vcmpEqInfo (m a b : BitVec 5) (g : BitVec 3) (c : BitVec 1) : VInfo :=
  ⟨false, g, c == 1, notSew4, .cmp m a b vcmpEqTest⟩
/-- vcmpNe -/
def vcmpNeInfo (m a b : BitVec 5) (g : BitVec 3) (c : BitVec 1) : VInfo :=
  ⟨false, g, c == 1, notSew4, .cmp m a b vcmpNeTest⟩
/-- vcmpLt -/
def vcmpLtInfo (m a b : BitVec 5) (g : BitVec 3) (c : BitVec 1) : VInfo :=
  ⟨false, g, c == 1, notSew4, .cmp m a b vcmpLtTest⟩
/-- vcmpGe -/
def vcmpGeInfo (m a b : BitVec 5) (g : BitVec 3) (c : BitVec 1) : VInfo :=
  ⟨false, g, c == 1, notSew4, .cmp m a b vcmpGeTest⟩
/-- vcmpLtn -/
def vcmpLtnInfo (m a b : BitVec 5) (g : BitVec 3) (c : BitVec 1) : VInfo :=
  ⟨false, g, c == 1, notSew4, .cmp m a b vcmpLtnTest⟩
/-- vcmpGen -/
def vcmpGenInfo (m a b : BitVec 5) (g : BitVec 3) (c : BitVec 1) : VInfo :=
  ⟨false, g, c == 1, notSew4, .cmp m a b vcmpGenTest⟩
/-- vfcmpEq -/
def vfcmpEqInfo (m a b : BitVec 5) (g : BitVec 3) (c : BitVec 1) : VInfo :=
  ⟨false, g, c == 1, anySew, .cmp m a b vfcmpEqTest⟩
/-- vfcmpNe -/
def vfcmpNeInfo (m a b : BitVec 5) (g : BitVec 3) (c : BitVec 1) : VInfo :=
  ⟨false, g, c == 1, anySew, .cmp m a b vfcmpNeTest⟩
/-- vfcmpLt -/
def vfcmpLtInfo (m a b : BitVec 5) (g : BitVec 3) (c : BitVec 1) : VInfo :=
  ⟨false, g, c == 1, anySew, .cmp m a b vfcmpLtTest⟩
/-- vfcmpLe -/
def vfcmpLeInfo (m a b : BitVec 5) (g : BitVec 3) (c : BitVec 1) : VInfo :=
  ⟨false, g, c == 1, anySew, .cmp m a b vfcmpLeTest⟩
/-- vfcmpGt -/
def vfcmpGtInfo (m a b : BitVec 5) (g : BitVec 3) (c : BitVec 1) : VInfo :=
  ⟨false, g, c == 1, anySew, .cmp m a b vfcmpGtTest⟩
/-- vfcmpGe -/
def vfcmpGeInfo (m a b : BitVec 5) (g : BitVec 3) (c : BitVec 1) : VInfo :=
  ⟨false, g, c == 1, anySew, .cmp m a b vfcmpGeTest⟩
/-- vfcmpUn -/
def vfcmpUnInfo (m a b : BitVec 5) (g : BitVec 3) (c : BitVec 1) : VInfo :=
  ⟨false, g, c == 1, anySew, .cmp m a b vfcmpUnTest⟩
/-- vslideup -/
def vslideupInfo (p : BitVec 1) (d a _b : BitVec 5) (g : BitVec 3) (c : BitVec 1) : VInfo :=
  ⟨isBrim p, g, c == 1, anySew, .slideUp d a⟩
/-- vslidedn -/
def vslidednInfo (p : BitVec 1) (d a _b : BitVec 5) (g : BitVec 3) (c : BitVec 1) : VInfo :=
  ⟨isBrim p, g, c == 1, anySew, .slideDown d a⟩
/-- vperm -/
def vpermInfo (p : BitVec 1) (d a b : BitVec 5) (g : BitVec 3) (c : BitVec 1) : VInfo :=
  ⟨isBrim p, g, c == 1, notSew4, .perm d a b⟩
/-- vcompress -/
def vcompressInfo (p : BitVec 1) (d a : BitVec 5) (g : BitVec 3) (c : BitVec 1) : VInfo :=
  ⟨isBrim p, g, c == 1, anySew, .compress d a⟩
/-- vexpand -/
def vexpandInfo (p : BitVec 1) (d a : BitVec 5) (g : BitVec 3) (c : BitVec 1) : VInfo :=
  ⟨isBrim p, g, c == 1, anySew, .expand d a⟩
/-- vconf -/
def vconfInfo (p : BitVec 1) (d a : BitVec 5) (g : BitVec 3) (c : BitVec 1) : VInfo :=
  ⟨isBrim p, g, c == 1, notSew8, .conf d a⟩
/-- vsprs -/
def vsprsInfo (p : BitVec 1) (d a : BitVec 5) (g : BitVec 3) (c : BitVec 1) : VInfo :=
  ⟨isBrim p, g, c == 1, anySew, .sparse d a⟩
/-- vredsum -/
def vredsumInfo (p : BitVec 1) (d a : BitVec 5) (g : BitVec 3) (c : BitVec 1) : VInfo :=
  ⟨isBrim p, g, c == 1, notSew4, .reduce d a vredsumTree⟩
/-- vredmin -/
def vredminInfo (p : BitVec 1) (d a : BitVec 5) (g : BitVec 3) (c : BitVec 1) : VInfo :=
  ⟨isBrim p, g, c == 1, notSew4, .reduce d a vredminTree⟩
/-- vredminn -/
def vredminnInfo (p : BitVec 1) (d a : BitVec 5) (g : BitVec 3) (c : BitVec 1) : VInfo :=
  ⟨isBrim p, g, c == 1, notSew4, .reduce d a vredminnTree⟩
/-- vredmax -/
def vredmaxInfo (p : BitVec 1) (d a : BitVec 5) (g : BitVec 3) (c : BitVec 1) : VInfo :=
  ⟨isBrim p, g, c == 1, notSew4, .reduce d a vredmaxTree⟩
/-- vredmaxn -/
def vredmaxnInfo (p : BitVec 1) (d a : BitVec 5) (g : BitVec 3) (c : BitVec 1) : VInfo :=
  ⟨isBrim p, g, c == 1, notSew4, .reduce d a vredmaxnTree⟩
/-- vfredsum -/
def vfredsumInfo (p : BitVec 1) (d a : BitVec 5) (g : BitVec 3) (c : BitVec 1) : VInfo :=
  ⟨isBrim p, g, c == 1, anySew, .reduce d a vfredsumTree⟩
/-- vfredmin -/
def vfredminInfo (p : BitVec 1) (d a : BitVec 5) (g : BitVec 3) (c : BitVec 1) : VInfo :=
  ⟨isBrim p, g, c == 1, anySew, .reduce d a vfredminTree⟩
/-- vfredmax -/
def vfredmaxInfo (p : BitVec 1) (d a : BitVec 5) (g : BitVec 3) (c : BitVec 1) : VInfo :=
  ⟨isBrim p, g, c == 1, anySew, .reduce d a vfredmaxTree⟩
/-- vdup -/
def vdupInfo (p : BitVec 1) (d _a : BitVec 5) (g : BitVec 3) (c : BitVec 1) : VInfo :=
  ⟨isBrim p, g, c == 1, anySew, .dup d⟩
/-- vext -/
def vextInfo (p : BitVec 1) (d a _b : BitVec 5) (c : BitVec 1) : VInfo :=
  ⟨isBrim p, 0, c == 1, anySew, .extract d a⟩
/-- vins -/
def vinsInfo (p : BitVec 1) (d _a _b : BitVec 5) (c : BitVec 1) : VInfo :=
  ⟨isBrim p, 0, c == 1, anySew, .insert d⟩
/-- vmv -/
def vmvInfo (p : BitVec 1) (d a : BitVec 5) (g : BitVec 3) (c : BitVec 1) : VInfo :=
  ⟨isBrim p, g, c == 1, anySew, .copy d a⟩
/-- vmerge -/
def vmergeInfo (p : BitVec 1) (d a b : BitVec 5) (g : BitVec 3) (c : BitVec 1) : VInfo :=
  ⟨isBrim p, g, c == 1, anySew, .merge d a b⟩
/-- vmovcb -/
def vmovcbInfo (d a : BitVec 5) (g : BitVec 3) : VInfo := ⟨true, g, false, anySew, .toBrim d a⟩
/-- vmovbc -/
def vmovbcInfo (d a : BitVec 5) (g : BitVec 3) : VInfo := ⟨false, g, false, anySew, .toCrown d a⟩
/-- vscanAdd -/
def vscanAddInfo (p : BitVec 1) (d a : BitVec 5) (g : BitVec 3) (c : BitVec 1) : VInfo :=
  ⟨isBrim p, g, c == 1, notSew4, .scan d a vscanAddOp⟩
/-- vscanMax -/
def vscanMaxInfo (p : BitVec 1) (d a : BitVec 5) (g : BitVec 3) (c : BitVec 1) : VInfo :=
  ⟨isBrim p, g, c == 1, notSew4, .scan d a vscanMaxOp⟩
/-- vscanMin -/
def vscanMinInfo (p : BitVec 1) (d a : BitVec 5) (g : BitVec 3) (c : BitVec 1) : VInfo :=
  ⟨isBrim p, g, c == 1, notSew4, .scan d a vscanMinOp⟩
/-- vfscanAdd -/
def vfscanAddInfo (p : BitVec 1) (d a : BitVec 5) (g : BitVec 3) (c : BitVec 1) : VInfo :=
  ⟨isBrim p, g, c == 1, anySew, .scan d a vfscanAddOp⟩
/-- vfscanMax -/
def vfscanMaxInfo (p : BitVec 1) (d a : BitVec 5) (g : BitVec 3) (c : BitVec 1) : VInfo :=
  ⟨isBrim p, g, c == 1, anySew, .scan d a vfscanMaxOp⟩
/-- vfscanMin -/
def vfscanMinInfo (p : BitVec 1) (d a : BitVec 5) (g : BitVec 3) (c : BitVec 1) : VInfo :=
  ⟨isBrim p, g, c == 1, anySew, .scan d a vfscanMinOp⟩
/-- vrec -/
def vrecInfo (p : BitVec 1) (d a b : BitVec 5) (g : BitVec 3) (c : BitVec 1) : VInfo :=
  ⟨isBrim p, g, c == 1, anySew, .recur d a b⟩
/-- vld -/
def vldInfo (p : BitVec 1) (d _a : BitVec 5) (g : BitVec 3) (c : BitVec 1) : VInfo :=
  ⟨isBrim p, g, c == 1, anySew, .load d (plainAgent p) .unit⟩
/-- vldAcq -/
def vldAcqInfo (d _a : BitVec 5) (g : BitVec 3) (c : BitVec 1) : VInfo :=
  ⟨false, g, c == 1, anySew, .load d .vector .unit⟩
/-- vldV -/
def vldVInfo (d _a : BitVec 5) (g : BitVec 3) (c : BitVec 1) : VInfo :=
  ⟨true, g, c == 1, anySew, .load d .vertical .unit⟩
/-- vldL -/
def vldLInfo (d _a : BitVec 5) (g : BitVec 3) (c : BitVec 1) : VInfo :=
  ⟨true, g, c == 1, anySew, .load d .lateral .unit⟩
/-- vldNt -/
def vldNtInfo (d _a : BitVec 5) (g : BitVec 3) (c : BitVec 1) : VInfo :=
  ⟨false, g, c == 1, anySew, .load d .vector .unit⟩
/-- vlds -/
def vldsInfo (p : BitVec 1) (d _a _b : BitVec 5) (g : BitVec 3) (c : BitVec 1) : VInfo :=
  ⟨isBrim p, g, c == 1, notSew4, .load d (plainAgent p) .strided⟩
/-- vldsAcq -/
def vldsAcqInfo (d _a _b : BitVec 5) (g : BitVec 3) (c : BitVec 1) : VInfo :=
  ⟨false, g, c == 1, notSew4, .load d .vector .strided⟩
/-- vldsV -/
def vldsVInfo (d _a _b : BitVec 5) (g : BitVec 3) (c : BitVec 1) : VInfo :=
  ⟨true, g, c == 1, notSew4, .load d .vertical .strided⟩
/-- vldsL -/
def vldsLInfo (d _a _b : BitVec 5) (g : BitVec 3) (c : BitVec 1) : VInfo :=
  ⟨true, g, c == 1, notSew4, .load d .lateral .strided⟩
/-- vldsNt -/
def vldsNtInfo (d _a _b : BitVec 5) (g : BitVec 3) (c : BitVec 1) : VInfo :=
  ⟨false, g, c == 1, notSew4, .load d .vector .strided⟩
/-- vldx -/
def vldxInfo (d _a b : BitVec 5) (g : BitVec 3) (c : BitVec 1) : VInfo :=
  ⟨false, g, c == 1, notSew4, .load d .vector (.indexed b true false)⟩
/-- vldxB -/
def vldxBInfo (d _a b : BitVec 5) (g : BitVec 3) (c : BitVec 1) : VInfo :=
  ⟨false, g, c == 1, notSew4, .load d .vector (.indexed b false false)⟩
/-- vldxBd -/
def vldxBdInfo (d _a b : BitVec 5) (g : BitVec 3) (c : BitVec 1) : VInfo :=
  ⟨false, g, c == 1, notSew4, .load d .vector (.indexed b true true)⟩
/-- vldxV -/
def vldxVInfo (d _a b : BitVec 5) (g : BitVec 3) (c : BitVec 1) : VInfo :=
  ⟨true, g, c == 1, notSew4, .load d .vertical (.indexed b true false)⟩
/-- vldxL -/
def vldxLInfo (d _a b : BitVec 5) (g : BitVec 3) (c : BitVec 1) : VInfo :=
  ⟨true, g, c == 1, notSew4, .load d .lateral (.indexed b true false)⟩
/-- vldxVbd -/
def vldxVbdInfo (d _a b : BitVec 5) (g : BitVec 3) (c : BitVec 1) : VInfo :=
  ⟨true, g, c == 1, notSew4, .load d .vertical (.indexed b true true)⟩
/-- vldxLbd -/
def vldxLbdInfo (d _a b : BitVec 5) (g : BitVec 3) (c : BitVec 1) : VInfo :=
  ⟨true, g, c == 1, notSew4, .load d .lateral (.indexed b true true)⟩
/-- vst -/
def vstInfo (p : BitVec 1) (d _a : BitVec 5) (g : BitVec 3) (c : BitVec 1) : VInfo :=
  ⟨isBrim p, g, c == 1, anySew, .store d (plainAgent p) .unit⟩
/-- vstV -/
def vstVInfo (d _a : BitVec 5) (g : BitVec 3) (c : BitVec 1) : VInfo :=
  ⟨true, g, c == 1, anySew, .store d .vertical .unit⟩
/-- vstL -/
def vstLInfo (d _a : BitVec 5) (g : BitVec 3) (c : BitVec 1) : VInfo :=
  ⟨true, g, c == 1, anySew, .store d .lateral .unit⟩
/-- vstNt -/
def vstNtInfo (d _a : BitVec 5) (g : BitVec 3) (c : BitVec 1) : VInfo :=
  ⟨false, g, c == 1, anySew, .store d .vector .unit⟩
/-- vsts -/
def vstsInfo (p : BitVec 1) (d _a _b : BitVec 5) (g : BitVec 3) (c : BitVec 1) : VInfo :=
  ⟨isBrim p, g, c == 1, notSew4, .store d (plainAgent p) .strided⟩
/-- vstsV -/
def vstsVInfo (d _a _b : BitVec 5) (g : BitVec 3) (c : BitVec 1) : VInfo :=
  ⟨true, g, c == 1, notSew4, .store d .vertical .strided⟩
/-- vstsL -/
def vstsLInfo (d _a _b : BitVec 5) (g : BitVec 3) (c : BitVec 1) : VInfo :=
  ⟨true, g, c == 1, notSew4, .store d .lateral .strided⟩
/-- vstsNt -/
def vstsNtInfo (d _a _b : BitVec 5) (g : BitVec 3) (c : BitVec 1) : VInfo :=
  ⟨false, g, c == 1, notSew4, .store d .vector .strided⟩
/-- vstx -/
def vstxInfo (d _a b : BitVec 5) (g : BitVec 3) (c : BitVec 1) : VInfo :=
  ⟨false, g, c == 1, notSew4, .store d .vector (.indexed b true false)⟩
/-- vstxB -/
def vstxBInfo (d _a b : BitVec 5) (g : BitVec 3) (c : BitVec 1) : VInfo :=
  ⟨false, g, c == 1, notSew4, .store d .vector (.indexed b false false)⟩
/-- vstxBd -/
def vstxBdInfo (d _a b : BitVec 5) (g : BitVec 3) (c : BitVec 1) : VInfo :=
  ⟨false, g, c == 1, notSew4, .store d .vector (.indexed b true true)⟩
/-- vstxV -/
def vstxVInfo (d _a b : BitVec 5) (g : BitVec 3) (c : BitVec 1) : VInfo :=
  ⟨true, g, c == 1, notSew4, .store d .vertical (.indexed b true false)⟩
/-- vstxL -/
def vstxLInfo (d _a b : BitVec 5) (g : BitVec 3) (c : BitVec 1) : VInfo :=
  ⟨true, g, c == 1, notSew4, .store d .lateral (.indexed b true false)⟩
/-- vstxVbd -/
def vstxVbdInfo (d _a b : BitVec 5) (g : BitVec 3) (c : BitVec 1) : VInfo :=
  ⟨true, g, c == 1, notSew4, .store d .vertical (.indexed b true true)⟩
/-- vstxLbd -/
def vstxLbdInfo (d _a b : BitVec 5) (g : BitVec 3) (c : BitVec 1) : VInfo :=
  ⟨true, g, c == 1, notSew4, .store d .lateral (.indexed b true true)⟩
/-- vwin -/
def vwinInfo (o _a _b : BitVec 5) : VInfo := ⟨false, 0, false, notSew4, .windowOpen o⟩
/-- vwred -/
def vwredInfo (a b : BitVec 5) (g : BitVec 3) (c : BitVec 1) : VInfo :=
  ⟨false, g, c == 1, notSew4, .windowAdd a b⟩
/-- vwmerge -/
def vwmergeInfo : VInfo := ⟨false, 0, false, notSew4, .windowMerge⟩
/-- vwdrop -/
def vwdropInfo : VInfo := ⟨false, 0, false, notSew4, .windowDrop⟩

/-- The parts of a vector instruction; `none` for every other. -/
def vinfo (i : Instr) : Option VInfo :=
  match i with
  | .vadd p d a b g c => some (vaddInfo p d a b g c)
  | .vsub p d a b g c => some (vsubInfo p d a b g c)
  | .vmul p d a b g c => some (vmulInfo p d a b g c)
  | .vmulh p d a b g c => some (vmulhInfo p d a b g c)
  | .vmulhn p d a b g c => some (vmulhnInfo p d a b g c)
  | .vmin p d a b g c => some (vminInfo p d a b g c)
  | .vminn p d a b g c => some (vminnInfo p d a b g c)
  | .vmax p d a b g c => some (vmaxInfo p d a b g c)
  | .vmaxn p d a b g c => some (vmaxnInfo p d a b g c)
  | .vand p d a b g c => some (vandInfo p d a b g c)
  | .vor p d a b g c => some (vorInfo p d a b g c)
  | .vxor p d a b g c => some (vxorInfo p d a b g c)
  | .vsll p d a b g c => some (vsllInfo p d a b g c)
  | .vsrl p d a b g c => some (vsrlInfo p d a b g c)
  | .vsra p d a b g c => some (vsraInfo p d a b g c)
  | .vandn p d a b g c => some (vandnInfo p d a b g c)
  | .vdiv p d a b g c => some (vdivInfo p d a b g c)
  | .vdivn p d a b g c => some (vdivnInfo p d a b g c)
  | .vrem p d a b g c => some (vremInfo p d a b g c)
  | .vremn p d a b g c => some (vremnInfo p d a b g c)
  | .vsadd p d a b g c => some (vsaddInfo p d a b g c)
  | .vsaddn p d a b g c => some (vsaddnInfo p d a b g c)
  | .vssub p d a b g c => some (vssubInfo p d a b g c)
  | .vssubn p d a b g c => some (vssubnInfo p d a b g c)
  | .vfadd p d a b g c => some (vfaddInfo p d a b g c)
  | .vfsub p d a b g c => some (vfsubInfo p d a b g c)
  | .vfmul p d a b g c => some (vfmulInfo p d a b g c)
  | .vfdiv p d a b g c => some (vfdivInfo p d a b g c)
  | .vfmin p d a b g c => some (vfminInfo p d a b g c)
  | .vfmax p d a b g c => some (vfmaxInfo p d a b g c)
  | .vfsgnj p d a b g c => some (vfsgnjInfo p d a b g c)
  | .vfsgnjn p d a b g c => some (vfsgnjnInfo p d a b g c)
  | .vfma p d a b g c => some (vfmaInfo p d a b g c)
  | .vfms p d a b g c => some (vfmsInfo p d a b g c)
  | .vfnma p d a b g c => some (vfnmaInfo p d a b g c)
  | .vfnms p d a b g c => some (vfnmsInfo p d a b g c)
  | .vmacc p d a b g c => some (vmaccInfo p d a b g c)
  | .vmsac p d a b g c => some (vmsacInfo p d a b g c)
  | .vfscale p d a b g c => some (vfscaleInfo p d a b g c)
  | .vabs p d a g c => some (vabsInfo p d a g c)
  | .vneg p d a g c => some (vnegInfo p d a g c)
  | .vnot p d a g c => some (vnotInfo p d a g c)
  | .vclz p d a g c => some (vclzInfo p d a g c)
  | .vpopc p d a g c => some (vpopcInfo p d a g c)
  | .vid p d g c => some (vidInfo p d g c)
  | .viota p d m g c => some (viotaInfo p d m g c)
  | .vfsqrt p d a g c => some (vfsqrtInfo p d a g c)
  | .vfabs p d a g c => some (vfabsInfo p d a g c)
  | .vfneg p d a g c => some (vfnegInfo p d a g c)
  | .vfclass p d a g c => some (vfclassInfo p d a g c)
  | .vfround p d a g c => some (vfroundInfo p d a g c)
  | .vfexpo p d a g c => some (vfexpoInfo p d a g c)
  | .vfmant p d a g c => some (vfmantInfo p d a g c)
  | .vaddX p d a b g c => some (vaddXInfo p d a b g c)
  | .vrsubX p d a b g c => some (vrsubXInfo p d a b g c)
  | .vmulX p d a b g c => some (vmulXInfo p d a b g c)
  | .vsllX p d a b g c => some (vsllXInfo p d a b g c)
  | .vfaddX p d a b g c => some (vfaddXInfo p d a b g c)
  | .vfrsubX p d a b g c => some (vfrsubXInfo p d a b g c)
  | .vfmulX p d a b g c => some (vfmulXInfo p d a b g c)
  | .vfmaX p d a b g c => some (vfmaXInfo p d a b g c)
  | .vcvt p dst src d a g c => some (vcvtInfo p dst src d a g c)
  | .vcmpEq m a b g c => some (vcmpEqInfo m a b g c)
  | .vcmpNe m a b g c => some (vcmpNeInfo m a b g c)
  | .vcmpLt m a b g c => some (vcmpLtInfo m a b g c)
  | .vcmpGe m a b g c => some (vcmpGeInfo m a b g c)
  | .vcmpLtn m a b g c => some (vcmpLtnInfo m a b g c)
  | .vcmpGen m a b g c => some (vcmpGenInfo m a b g c)
  | .vfcmpEq m a b g c => some (vfcmpEqInfo m a b g c)
  | .vfcmpNe m a b g c => some (vfcmpNeInfo m a b g c)
  | .vfcmpLt m a b g c => some (vfcmpLtInfo m a b g c)
  | .vfcmpLe m a b g c => some (vfcmpLeInfo m a b g c)
  | .vfcmpGt m a b g c => some (vfcmpGtInfo m a b g c)
  | .vfcmpGe m a b g c => some (vfcmpGeInfo m a b g c)
  | .vfcmpUn m a b g c => some (vfcmpUnInfo m a b g c)
  | .vslideup p d a b g c => some (vslideupInfo p d a b g c)
  | .vslidedn p d a b g c => some (vslidednInfo p d a b g c)
  | .vperm p d a b g c => some (vpermInfo p d a b g c)
  | .vcompress p d a g c => some (vcompressInfo p d a g c)
  | .vexpand p d a g c => some (vexpandInfo p d a g c)
  | .vconf p d a g c => some (vconfInfo p d a g c)
  | .vsprs p d a g c => some (vsprsInfo p d a g c)
  | .vredsum p d a g c => some (vredsumInfo p d a g c)
  | .vredmin p d a g c => some (vredminInfo p d a g c)
  | .vredminn p d a g c => some (vredminnInfo p d a g c)
  | .vredmax p d a g c => some (vredmaxInfo p d a g c)
  | .vredmaxn p d a g c => some (vredmaxnInfo p d a g c)
  | .vfredsum p d a g c => some (vfredsumInfo p d a g c)
  | .vfredmin p d a g c => some (vfredminInfo p d a g c)
  | .vfredmax p d a g c => some (vfredmaxInfo p d a g c)
  | .vdup p d a g c => some (vdupInfo p d a g c)
  | .vext p d a b c => some (vextInfo p d a b c)
  | .vins p d a b c => some (vinsInfo p d a b c)
  | .vmv p d a g c => some (vmvInfo p d a g c)
  | .vmerge p d a b g c => some (vmergeInfo p d a b g c)
  | .vmovcb d a g => some (vmovcbInfo d a g)
  | .vmovbc d a g => some (vmovbcInfo d a g)
  | .vscanAdd p d a g c => some (vscanAddInfo p d a g c)
  | .vscanMax p d a g c => some (vscanMaxInfo p d a g c)
  | .vscanMin p d a g c => some (vscanMinInfo p d a g c)
  | .vfscanAdd p d a g c => some (vfscanAddInfo p d a g c)
  | .vfscanMax p d a g c => some (vfscanMaxInfo p d a g c)
  | .vfscanMin p d a g c => some (vfscanMinInfo p d a g c)
  | .vrec p d a b g c => some (vrecInfo p d a b g c)
  | .vld p d a g c => some (vldInfo p d a g c)
  | .vldAcq d a g c => some (vldAcqInfo d a g c)
  | .vldV d a g c => some (vldVInfo d a g c)
  | .vldL d a g c => some (vldLInfo d a g c)
  | .vldNt d a g c => some (vldNtInfo d a g c)
  | .vlds p d a b g c => some (vldsInfo p d a b g c)
  | .vldsAcq d a b g c => some (vldsAcqInfo d a b g c)
  | .vldsV d a b g c => some (vldsVInfo d a b g c)
  | .vldsL d a b g c => some (vldsLInfo d a b g c)
  | .vldsNt d a b g c => some (vldsNtInfo d a b g c)
  | .vldx d a b g c => some (vldxInfo d a b g c)
  | .vldxB d a b g c => some (vldxBInfo d a b g c)
  | .vldxBd d a b g c => some (vldxBdInfo d a b g c)
  | .vldxV d a b g c => some (vldxVInfo d a b g c)
  | .vldxL d a b g c => some (vldxLInfo d a b g c)
  | .vldxVbd d a b g c => some (vldxVbdInfo d a b g c)
  | .vldxLbd d a b g c => some (vldxLbdInfo d a b g c)
  | .vst p d a g c => some (vstInfo p d a g c)
  | .vstV d a g c => some (vstVInfo d a g c)
  | .vstL d a g c => some (vstLInfo d a g c)
  | .vstNt d a g c => some (vstNtInfo d a g c)
  | .vsts p d a b g c => some (vstsInfo p d a b g c)
  | .vstsV d a b g c => some (vstsVInfo d a b g c)
  | .vstsL d a b g c => some (vstsLInfo d a b g c)
  | .vstsNt d a b g c => some (vstsNtInfo d a b g c)
  | .vstx d a b g c => some (vstxInfo d a b g c)
  | .vstxB d a b g c => some (vstxBInfo d a b g c)
  | .vstxBd d a b g c => some (vstxBdInfo d a b g c)
  | .vstxV d a b g c => some (vstxVInfo d a b g c)
  | .vstxL d a b g c => some (vstxLInfo d a b g c)
  | .vstxVbd d a b g c => some (vstxVbdInfo d a b g c)
  | .vstxLbd d a b g c => some (vstxLbdInfo d a b g c)
  | .vwin o a b => some (vwinInfo o a b)
  | .vwred a b g c => some (vwredInfo a b g c)
  | .vwmerge => some vwmergeInfo
  | .vwdrop => some vwdropInfo
  | _ => none

end Sys2Proof.Machine
end

