-- ==== Sys2Proof/Machine/VecReg.lean ====
section
/-! DEFINITION. VecReg.lean: elements of vector registers and their governing bits (R70, R72), parity errors of register
storage (R211, R330, R389) and the error record of the brim (R330, R332). -/

namespace Sys2Proof.Machine

/-! ## Elements (R70) -/

/-- The storage of a bank. -/
def Hart.bank (h : Hart) (brim : Bool) : Vector Group 256 := if brim then h.brim else h.v

/-- The storage group that holds bit `n` of a register. -/
def Hart.groupAt (h : Hart) (r n : Nat) : Nat := r * h.count.groups + n / 2048

/-- Element `i` of a register at width `w`. -/
def Hart.elemAt (h : Hart) (brim : Bool) (r w i : Nat) : Nat :=
  (((h.bank brim).getD (h.groupAt r (i * w)) 0).extractLsb' (i * w % 2048) w).toNat

/-- A group with the `w` bits from bit `o` on replaced. -/
def putBits (x : Group) (o w v : Nat) : Group :=
  (x &&& ~~~(BitVec.ofNat 2048 (2 ^ w - 1) <<< o)) ||| (BitVec.ofNat 2048 (v % 2 ^ w) <<< o)

/-- Bytes of a list outside `n` bytes from `a` on. -/
def outside (l : List Nat) (a n : Nat) : List Nat := l.filter fun b => decide (b < a) || decide (a + n ≤ b)

/-- The storage byte at which element `i` of a register begins. -/
def Hart.byteAt (h : Hart) (r w i : Nat) : Nat := r * h.count.groups * 256 + i * w / 8

/-- Element `i` of a register written. A write that covers a byte whole sets its parity afresh (R389). -/
def Hart.putElem (h : Hart) (brim : Bool) (r w i v : Nat) : Hart :=
  let k := h.groupAt r (i * w)
  if brim then
    { h with
      brim := h.brim.setIfInBounds k (putBits (h.brim.getD k 0) (i * w % 2048) w v)
      badBrim := if h.badBrim.isEmpty then [] else outside h.badBrim (h.byteAt r w i) (w / 8) }
  else
    { h with
      v := h.v.setIfInBounds k (putBits (h.v.getD k 0) (i * w % 2048) w v)
      badCrown := if h.badCrown.isEmpty then [] else outside h.badCrown (h.byteAt r w i) (w / 8) }

/-- The number of the governing bit of element `i` at width `w` (R72). -/
def govBit (w i : Nat) : Nat := if w = 4 then i / 2 else i * w / 8

/-- The element at the width in force whose governing bit is `p` (R82). -/
def elemOfPos (w p : Nat) : Nat := if w = 4 then 2 * p else p * 8 / w

/-- Bytes of a register. -/
def Count.bytes (c : Count) : Nat := 256 * c.groups

/-! ## Parity and poison -/

/-- A source element: bank, register, width, index. -/
structure Src where
  brim : Bool
  r : Nat
  w : Nat
  i : Nat
  deriving DecidableEq, Repr

/-- A byte of a source element has a parity error. -/
def Hart.parityBad (h : Hart) (x : Src) : Bool :=
  (if x.brim then h.badBrim else h.badCrown).any fun b =>
    decide (h.byteAt x.r x.w x.i ≤ b) && decide (b < h.byteAt x.r x.w x.i + (x.w + 7) / 8)

/-- The 64-byte segment of a register's group that holds an element, as storage group and segment in it (R315). -/
def Hart.segment (h : Hart) (r w i : Nat) : Nat × Nat := (h.groupAt r (i * w), i * w % 2048 / 512)

/-- A source element lies in a poisoned segment. -/
def Hart.isPoisoned (h : Hart) (x : Src) : Bool :=
  x.brim && (h.brimPoison.getD (h.segment x.r x.w x.i).1 0).getLsbD (h.segment x.r x.w x.i).2

/-- The segment of an element poisoned. -/
def Hart.poisonElem (h : Hart) (r w i : Nat) : Hart :=
  let g := h.segment r w i
  { h with brimPoison := h.brimPoison.setIfInBounds g.1 (h.brimPoison.getD g.1 0 ||| (1#4 <<< g.2)) }

/-- The bank of an element's segment (R315). -/
def bankOfElem (w i : Nat) : Nat := i * w / 512 % 16

/-! ## The brim's error record (R330, R332) -/

/-- BSUM's error bits [23:21] and [15:0]. -/
def errorBits (bsum : Word) : Word := bsum &&& 0xE0FFFF

/-- The sequence number of the latest brim convoy sent. -/
def Csrs.sent (c : Csrs) : BitVec 32 := low32 c.bseq

/-- BWIN widened by a window, or set to it when no error bit was set (R332). Sequence numbers are compared by their
distance back from the latest sent. -/
def bwinWidened (c : Csrs) (first last : BitVec 32) : Word :=
  if errorBits c.bsum = 0 then zext (last ++ first)
  else
    let age (q : BitVec 32) : Nat := (c.sent - q).toNat
    let f := low32 c.bwin
    let l : BitVec 32 := field c.bwin 32 32
    zext ((if age last < age l then last else l) ++ (if age f < age first then first else f))

/-- The oldest brim convoy not yet completed, and the youngest sent (R332). Where every one has completed, as at an error that
a `vmovbc` meets, both are the youngest sent (assumption log 118). -/
def Hart.brimWindow (h : Hart) : BitVec 32 × BitVec 32 :=
  (match h.brimConvoys with
   | c :: _ => c.seq
   | [] => h.csr.sent, h.csr.sent)

/-- An error recorded in BSUM: UE (21) or RP (22), and its bank. -/
def Hart.recordBrim (h : Hart) (b bank : Nat) : Hart :=
  let w := h.brimWindow
  { h with csr := { h.csr with
      bwin := bwinWidened h.csr w.1 w.2
      bsum := h.csr.bsum ||| (1 <<< b) ||| (1 <<< bank) } }

/-- A parity error in brim register storage: recorded and reported (R330, R414). -/
def State.brimParity (s : State) (x : Src) : State :=
  (s.onHart fun h => h.recordBrim 22 (bankOfElem x.w x.i)).report 0x0020 (zext (homeOf s.hart.id) |>.setWidth 32)
    [6, BitVec.ofNat 64 (32 + x.r), zext s.hart.id]

end Sys2Proof.Machine
end

