-- ==== Sys2Proof/Machine/VecMember.lean ====
section
/-! DEFINITION. VecMember.lean: what one member of a convoy does in one element group (R76, R82, R118 to R153). -/

namespace Sys2Proof.Machine

/-- What a member knows when it begins a group. -/
structure GCtx where
  /-- The element group and the group count. -/
  g : Nat
  n : Nat
  lane : Lane
  sat : Bool
  brim : Bool
  /-- Elements at positions below it are performed; an element at it is only checked (R82). -/
  limit : Nat
  /-- The governing bits as sampled (R78, R316). -/
  mask : Mask
  sa : Word
  sb : Word
  /-- The member's number in its convoy. -/
  idx : Nat
  /-- An element has been active in a lower group. -/
  begun : Bool
  /-- The first number of the requests that the group makes, and the order number of the convoy. -/
  base : Nat
  order : Nat
  deriving DecidableEq, Repr

/-- The member's accesses in this group. -/
def GCtx.turn (x : GCtx) : Turn := ⟨x.idx + 1, x.base, x.g⟩

/-- What stops an element: a memory access, or poisoned or bad register bytes (R82, R143, R211). -/
inductive VStop where
  | mem (e : Stop) (va : Word)
  | poison (reg : Nat)
  deriving DecidableEq, Repr

/-- A fault of a member at a position. -/
structure VFault where
  idx : Nat
  pos : Nat
  load : Bool
  /-- It is at the first active element of the member. -/
  first : Bool
  access : Nat
  stop : VStop
  /-- Local memory that the element read in error, for the report (R211). -/
  errors : List Piece
  deriving DecidableEq, Repr

/-- The running result of a member in a group. -/
structure Acc where
  s : State
  flags : Flags
  fault : Option VFault
  /-- An active element has been met. -/
  seen : Bool
  /-- The member waits for another package or for a page being migrated. -/
  pending : Bool
  /-- The state that a member carries from group to group (R147): acc, c, j, or a tree node. -/
  reg : Option Nat
  /-- What it carries derives from bad data (R136). -/
  taint : Bool
  /-- The 32-byte words of DRAM that the member has asked for in this group (R336). -/
  words : List Nat

/-- Values a member carries, by key. -/
abbrev Carry := List (Nat × Word)

/-- The carried value of a key. -/
def Carry.get (c : Carry) (k : Nat) : Option Nat := (c.find? fun p => decide (p.1 = k)).map fun p => p.2.toNat

/-- A carried value set. -/
def Carry.put (c : Carry) (k v : Nat) : Carry := (k, BitVec.ofNat 64 v) :: c.filter fun p => decide (p.1 ≠ k)

/-- The key of a member's running value. -/
def runKey (idx : Nat) : Nat := idx * 64 + 63

/-- The key under which a member notes that its running value derives from bad data. -/
def taintKey (idx : Nat) : Nat := idx * 64 + 62

/-- An element at a position is active. -/
def GCtx.active (x : GCtx) (pos : Nat) : Bool := x.mask.getLsbD pos

/-- The accumulator changed in its hart. -/
def Acc.onHart (a : Acc) (f : Hart → Hart) : Acc := { a with s := a.s.onHart f }

/-- A fault met at a position. -/
def Acc.fail (a : Acc) (x : GCtx) (pos : Nat) (load : Bool) (access : Nat) (stop : VStop) (errs : List Piece) : Acc :=
  { a with fault := some ⟨x.idx, pos, load, !x.begun && !a.seen, access, stop, errs⟩ }

/-- The sources of an element read: a parity error or poison met there. A crown parity error faults; in the brim the
answer is whether the element derives from bad data, unless the member is a synchronisation (`sync`), which faults. -/
def Acc.readSrcs (a : Acc) (x : GCtx) (pos : Nat) (sync : Bool) : List Src → Acc × Bool
  | [] => (a, false)
  | y :: ys =>
    let bad := a.s.hart.parityBad y
    if !y.brim && bad then (a.fail x pos false 0 (.poison y.r) [], false)
    else
      let a1 := if y.brim && bad then { a with s := a.s.brimParity y } else a
      let p := bad || a1.s.hart.isPoisoned y
      if sync && y.brim && p then (a1.fail x pos false 0 (.poison (32 + y.r)) [], false)
      else
        let r := a1.readSrcs x pos sync ys
        (r.1, r.2 || p)

/-- An active element: its sources read, then, below the limit, its effect. -/
def Acc.element (a : Acc) (x : GCtx) (pos : Nat) (sync : Bool) (srcs : List Src) (act : Bool → Acc → Acc) : Acc :=
  if a.fault.isSome || decide (x.limit < pos) then a
  else
    let r := a.readSrcs x pos sync srcs
    if r.1.fault.isSome then r.1
    else
      let a1 := if pos < x.limit then act r.2 r.1 else r.1
      { a1 with seen := true }

/-- An element written, with the poison it derives in the brim (R136). -/
def Acc.put (a : Acc) (brim poisoned : Bool) (r w i v : Nat) : Acc :=
  let h := a.s.hart.putElem brim r w i v
  { a with s := { a.s with hart := if brim && poisoned then h.poisonElem r w i else h } }

/-- An element read. -/
def Acc.read (a : Acc) (brim : Bool) (r w i : Nat) : Nat := a.s.hart.elemAt brim r w i

/-- Flags raised in a group. -/
def Acc.raise (a : Acc) (f : Flags) : Acc := { a with flags := a.flags ||| f }

/-- The elements of a group at a width, `total` in the register: `f` on each, ascending. -/
def overGroup (x : GCtx) (total : Nat) (f : Nat → Acc → Acc) (a : Acc) : Acc :=
  upTo (total / x.n) a fun a k => f (x.g * (total / x.n) + k) a

/-- The active elements of a group at a width. -/
def overActive (x : GCtx) (w total : Nat) (f : Nat → Acc → Acc) (a : Acc) : Acc :=
  overGroup x total (fun i a => if x.active (govBit w i) then f i a else a) a

/-- VMAX at a width. -/
def GCtx.elems (x : GCtx) (w : Nat) : Nat := 8 * (256 * x.n) / w

/-! ## Register members -/

/-- An element-wise member (R118). -/
def runLanes (x : GCtx) (d : Nat) (a b : Option Nat) (useD : Bool) (scalar : Option Nat) (op : LaneOp) (acc : Acc) : Acc :=
  let w := x.lane.w
  overActive x w (x.elems w) (fun i acc =>
    let srcs := (a.toList ++ b.toList ++ if useD then [d] else []).map fun r => (⟨x.brim, r, w, i⟩ : Src)
    acc.element x (govBit w i) false srcs fun p acc =>
      let get (r : Option Nat) : Nat :=
        match r with
        | some r => acc.read x.brim r w i
        | none => 0
      let r := op x.lane (scalar.getD (get a)) (get b) (if useD then acc.read x.brim d w i else 0)
      (acc.put x.brim p d w i r.1).raise r.2) acc

/-- `vid` (R124). -/
def runIdent (x : GCtx) (d : Nat) (acc : Acc) : Acc :=
  let w := x.lane.w
  overActive x w (x.elems w) (fun i acc =>
    acc.element x (govBit w i) false [] fun p acc => acc.put x.brim p d w i (i % 2 ^ w)) acc

/-- `viota` (R124): the count of active elements below whose bit in ms is 1, carried from group to group. -/
def runIota (x : GCtx) (d : Nat) (ms : Mask) (acc : Acc) : Acc :=
  let w := x.lane.w
  overActive x w (x.elems w) (fun i acc =>
    acc.element x (govBit w i) false [] fun p acc =>
      let c := acc.reg.getD 0
      { acc.put x.brim p d w i (c % 2 ^ w) with reg := some (if ms.getLsbD (govBit w i) then c + 1 else c) }) acc

/-- A conversion (R127, R128). -/
def runCvt (x : GCtx) (d a : Nat) (dst src : BitVec 4) (acc : Acc) : Acc :=
  let ws := fmtWidth src
  let wd := fmtWidth dst
  let wm := max ws wd
  overActive x wm (x.elems wm) (fun i acc =>
    acc.element x (govBit wm i) false [⟨x.brim, a, ws, i⟩] fun p acc =>
      let r := convert (fmtOf dst) (fmtOf src) x.lane.rm x.sat (acc.read x.brim a ws i)
      (acc.put x.brim p d wd i r.1).raise r.2) acc

/-- Bits `lo` to `lo+n−1` of a mask: the first set to a value, the others cleared. -/
def maskSpan (m : Mask) (lo n : Nat) (b : Bool) : Mask :=
  (m &&& ~~~(BitVec.ofNat 8192 (2 ^ n - 1) <<< lo)) ||| (if b then 1 <<< lo else 0)

/-- A compare: the bits of the group's bytes under R74, and in the last group the bits above the register. -/
def runCmp (x : GCtx) (m : BitVec 5) (a b : Nat) (test : LaneTest) (acc : Acc) : Acc :=
  let w := x.lane.w
  let acc1 := overGroup x (x.elems w) (fun i acc =>
    let pos := govBit w i
    if x.active pos then
      acc.element x pos false [⟨x.brim, a, w, i⟩, ⟨x.brim, b, w, i⟩] fun _ acc =>
        let r := test x.lane (acc.read x.brim a w i) (acc.read x.brim b w i)
        let old := acc.s.hart.mask m
        let v := if w = 4 ∧ i % 2 = 1 then r.1 && old.getLsbD pos else r.1
        (acc.onHart fun h => h.setMask m (maskSpan old pos (max 1 (w / 8)) v)).raise r.2
    else if pos < x.limit then acc.onHart fun h => h.setMask m (maskSpan (h.mask m) pos (max 1 (w / 8)) false)
    else acc) acc
  if x.g + 1 = x.n ∧ 256 * x.n ≤ x.limit ∧ acc1.fault.isNone then
    acc1.onHart fun h => h.setMask m (h.mask m &&& BitVec.ofNat 8192 (2 ^ (256 * x.n) - 1))
  else acc1

/-- A member that moves elements of one source register: `from_` gives the source index of element i, a constant 0 when
there is none, or leaves the element unwritten (R138). -/
inductive MoveFrom where
  | elem (j : Nat)
  | zero
  | skip
  deriving DecidableEq, Repr

/-- A permute by source index; `extra` are further sources that the index reads. -/
def runMove (x : GCtx) (d a : Nat) (extra : Nat → List Src) (source : Acc → Nat → MoveFrom) (acc : Acc) : Acc :=
  let w := x.lane.w
  overActive x w (x.elems w) (fun i acc =>
    let srcs := extra i ++ (match source acc i with
      | .elem j => [(⟨x.brim, a, w, j⟩ : Src)]
      | _ => [])
    acc.element x (govBit w i) false srcs fun p acc =>
      match source acc i with
      | .elem j => acc.put x.brim p d w i (acc.read x.brim a w j)
      | .zero => acc.put x.brim p d w i 0
      | .skip => acc) acc

/-- `vcompress` (R139): c is carried. -/
def runCompress (x : GCtx) (d a : Nat) (acc : Acc) : Acc :=
  let w := x.lane.w
  overActive x w (x.elems w) (fun i acc =>
    acc.element x (govBit w i) false [⟨x.brim, a, w, i⟩] fun p acc =>
      let c := acc.reg.getD 0
      { acc.put x.brim p d w c (acc.read x.brim a w i) with reg := some (c + 1) }) acc

/-- `vexpand` (R140): j is carried. -/
def runExpand (x : GCtx) (d a : Nat) (acc : Acc) : Acc :=
  let w := x.lane.w
  overActive x w (x.elems w) (fun i acc =>
    let j := acc.reg.getD 0
    acc.element x (govBit w i) false [⟨x.brim, a, w, j⟩] fun p acc =>
      { acc.put x.brim p d w i (acc.read x.brim a w j) with reg := some (j + 1) }) acc

/-- The greatest active j below i whose element has the bits `v` (R138). -/
def confFind (x : GCtx) (h : Hart) (a w v : Nat) : Nat → Option Nat
  | 0 => none
  | j + 1 => if x.active (govBit w j) && h.elemAt x.brim a w j == v then some j else confFind x h a w v j

/-- `vconf` (R138). Whether an element of a lower group is active is read from the governing bits as the group in hand samples
them, which differ from those of its own group where an engine has set bits meanwhile (assumption log 117). -/
def runConf (x : GCtx) (d a : Nat) (acc : Acc) : Acc :=
  let w := x.lane.w
  overActive x w (x.elems w) (fun i acc =>
    let srcs := ((List.range (i + 1)).filter fun j => x.active (govBit w j)).map fun j => (⟨x.brim, a, w, j⟩ : Src)
    acc.element x (govBit w i) false srcs fun p acc =>
      acc.put x.brim p d w i ((confFind x acc.s.hart a w (acc.read x.brim a w i) i).getD (2 ^ w - 1))) acc

/-- The key order of `vsprs`: a NaN above every number, then by magnitude (R141). -/
def keyAbove (f : Elem) (a b : Nat) : Bool :=
  let x := (decodeF f a).abs
  let y := (decodeF f b).abs
  if x.isNan then !y.isNan else if y.isNan then false else ltF y x

/-- The place of the highest key among places, the lowest place on a tie. -/
def bestOf (f : Elem) (v : Nat → Nat) : List Nat → Option Nat
  | [] => none
  | p :: ps =>
    match bestOf f v ps with
    | none => some p
    | some q => if keyAbove f (v q) (v p) then some q else some p

/-- `vsprs` (R141): quads. -/
def runSparse (x : GCtx) (d a : Nat) (acc : Acc) : Acc :=
  let w := x.lane.w
  upTo (x.elems w / x.n / 4) acc fun acc k =>
    let q := x.g * (x.elems w / x.n / 4) + k
    if x.active (govBit w (4 * q)) then
      acc.element x (govBit w (4 * q)) false ((List.range 4).map fun j => (⟨x.brim, a, w, 4 * q + j⟩ : Src)) fun p acc =>
        let v := fun j => acc.read x.brim a w (4 * q + j)
        let m := (bestOf x.lane.fmt v [0, 1, 2, 3]).getD 0
        let n := (bestOf x.lane.fmt v ([0, 1, 2, 3].filter fun j => decide (j ≠ m))).getD 0
        let lo := min m n
        let hi := max m n
        ((acc.put x.brim p d w (2 * q) (v lo)).put x.brim p d w (2 * q + 1) (v hi)).put x.brim p (d + 1) 4 q (lo + 4 * hi)
    else acc

/-! ## Reductions, scans, moves -/

/-- One level of the tree: EMPTY passes its other operand up (R36). -/
def treeLevel (node : Nat → Nat → Nat × Flags) : List (Option Nat) → List (Option Nat) × Flags
  | a :: b :: rest =>
    let r := treeLevel node rest
    match a, b with
    | a, none => (a :: r.1, r.2)
    | none, b => (b :: r.1, r.2)
    | some u, some v =>
      let n := node u v
      (some n.1 :: r.1, n.2 ||| r.2)
  | l => (l, noFlags)

/-- The tree over a list, `k` levels. -/
def treeFold (node : Nat → Nat → Nat × Flags) : Nat → List (Option Nat) → Option Nat × Flags
  | 0, l => (l.headD none, noFlags)
  | k + 1, l =>
    let r := treeLevel node l
    let t := treeFold node k r.1
    (t.1, r.2 ||| t.2)

/-- A reduction in a group: the sources checked, then the node over the group's positions (R36, R142). The one active element
of a float reduction enters as it stands, a NaN that is not canonical too: R36 passes it, R27 would deliver a canonical one
(assumption log 115). -/
def runReduce (x : GCtx) (a : Nat) (t : TreeOp) (acc : Acc) : Acc :=
  let w := x.lane.w
  let q := x.elems w / x.n
  let acc1 := overActive x w (x.elems w) (fun i acc =>
    acc.element x (govBit w i) x.brim [⟨x.brim, a, w, i⟩] fun _ acc => acc) acc
  let leaves := tabulate q fun k =>
    let i := x.g * q + k
    if x.active (govBit w i) && decide (govBit w i < x.limit) then
      some (t.enter x.lane (acc1.read x.brim a w i)) else none
  let r := treeFold (t.node x.lane) q.log2 leaves
  { acc1.raise r.2 with reg := r.1 }

/-- A scan (R37, R144): acc is carried, and with it whether it derives from bad data (R136). The first active element is
delivered as it stands, a NaN that is not canonical too (R27; assumption log 115). -/
def runScan (x : GCtx) (d a : Nat) (op : ScanOp) (acc : Acc) : Acc :=
  let w := x.lane.w
  overActive x w (x.elems w) (fun i acc =>
    acc.element x (govBit w i) false [⟨x.brim, a, w, i⟩] fun p acc =>
      let v := acc.read x.brim a w i
      let r := match acc.reg with
        | none => (v, noFlags)
        | some u => op x.lane u v
      let bad := p || acc.taint
      { (acc.put x.brim bad d w i r.1).raise r.2 with reg := some r.1, taint := bad }) acc

/-- `vrec` (R144): acc is carried, and with it whether it derives from bad data (R136); its seed is vd[0], read when group 0
begins and checked with the sources of the first active element there. -/
def runRecur (x : GCtx) (d a b : Nat) (acc : Acc) : Acc :=
  let w := x.lane.w
  let seed : Src := ⟨x.brim, d, w, 0⟩
  let acc0 := if acc.reg.isNone then
      { acc with
        reg := some (acc.read x.brim d w 0)
        taint := x.brim && (acc.s.hart.isPoisoned seed || acc.s.hart.parityBad seed) }
    else acc
  overActive x w (x.elems w) (fun i acc =>
    let first := decide (x.g = 0) && !acc.seen
    acc.element x (govBit w i) false ((if first then [seed] else []) ++ [⟨x.brim, a, w, i⟩, ⟨x.brim, b, w, i⟩]) fun p acc =>
      let r := fFma x.lane.fmt x.lane.rm false false (acc.read x.brim a w i) (acc.reg.getD 0) (acc.read x.brim b w i)
      let bad := p || acc.taint
      { (acc.put x.brim bad d w i r.1).raise r.2 with reg := some r.1, taint := bad }) acc0

/-- `vext` (R145): the read, in the group that holds element j (R77). -/
def runExtract (x : GCtx) (a : Nat) (acc : Acc) : Acc :=
  let w := x.lane.w
  let j := x.sb.toNat
  if j < x.elems w ∧ j * x.n / x.elems w = x.g then
    acc.element x (govBit w j) x.brim [⟨x.brim, a, w, j⟩] fun _ acc => { acc with reg := some (acc.read x.brim a w j) }
  else acc

/-- `vins` (R145). -/
def runInsert (x : GCtx) (d : Nat) (acc : Acc) : Acc :=
  let w := x.lane.w
  let j := x.sb.toNat
  if j < x.elems w ∧ j * x.n / x.elems w = x.g then
    acc.element x (govBit w j) false [] fun p acc => acc.put x.brim p d w j (x.sa.toNat % 2 ^ w)
  else acc

/-- `vmerge` (R145): every element is written; the governing bit chooses the source. -/
def runMerge (x : GCtx) (d a b : Nat) (acc : Acc) : Acc :=
  let w := x.lane.w
  overGroup x (x.elems w) (fun i acc =>
    let r := if x.active (govBit w i) then a else b
    acc.element x (govBit w i) false [⟨x.brim, r, w, i⟩] fun p acc => acc.put x.brim p d w i (acc.read x.brim r w i)) acc

/-- `vmovcb` (R146): the active elements, and the poison bit of a segment whose bytes it writes entirely cleared. -/
def runToBrim (x : GCtx) (d a : Nat) (acc : Acc) : Acc :=
  let w := x.lane.w
  let acc1 := overActive x w (x.elems w) (fun i acc =>
    acc.element x (govBit w i) false [⟨false, a, w, i⟩] fun _ acc => acc.put true false d w i (acc.read false a w i)) acc
  upTo 4 acc1 fun acc k =>
    let first := (x.g * 256 + k * 64) * 8 / w
    if (List.range (512 / w)).all fun e => x.active (govBit w (first + e)) && decide (govBit w (first + e) < x.limit) then
      acc.onHart fun h =>
        let n := h.groupAt d (first * w)
        { h with brimPoison := h.brimPoison.setIfInBounds n (h.brimPoison.getD n 0 &&& ~~~(1#4 <<< k)) }
    else acc

/-- `vmovbc` (R146). -/
def runToCrown (x : GCtx) (d a : Nat) (acc : Acc) : Acc :=
  let w := x.lane.w
  overActive x w (x.elems w) (fun i acc =>
    acc.element x (govBit w i) true [⟨true, a, w, i⟩] fun _ acc => acc.put false false d w i (acc.read true a w i)) acc

/-! ## Memory members (R148 to R154) -/

/-- Width in bytes of an element in memory: at SEW 4 a pair, which one byte and one governing bit hold. -/
def memBytes (w : Nat) : Nat := if w = 4 then 1 else w / 8

/-- The access width of a shape's elements and of its governing bits. -/
def memWidth (w : Nat) (shape : MemShape) : Nat × Nat :=
  match shape with
  | .indexed _ _ _ => (w, max w 32)
  | _ => if w = 4 then (8, 8) else (w, w)

/-- The index of element i of an indexed access (R148). -/
def indexOf (h : Hart) (brim : Bool) (vi : BitVec 5) (i : Nat) : Int := intOf 32 true (h.elemAt brim vi.toNat 32 i)

/-- The address of element i (R148). -/
def elemAddr (x : GCtx) (h : Hart) (shape : MemShape) (i : Nat) : Word :=
  match shape with
  | .unit => x.sa + BitVec.ofNat 64 (i * memBytes x.lane.w)
  | .strided => x.sa + wrap64 ((i : Int) * x.sb.toInt)
  | .indexed vi scaled _ =>
    let k := indexOf h x.brim vi i
    x.sa + wrap64 (if scaled then k * (x.lane.w / 8 : Nat) else k)

/-- The finding of a bounded kind on an element's index (R150). -/
def boundStop (h : Hart) (brim : Bool) (shape : MemShape) (i : Nat) : Option Stop :=
  match shape with
  | .indexed vi _ true =>
    let k := indexOf h brim vi i
    if k < 0 ∨ (low32 h.csr.vxb).toNat ≤ k then some (.bound (wrap64 k)) else none
  | _ => none

/-- The index register of an element, as a source. -/
def indexSrcs (brim : Bool) (shape : MemShape) (i : Nat) : List Src :=
  match shape with
  | .indexed vi _ _ => [⟨brim, vi.toNat, 32, i⟩]
  | _ => []

/-- The pieces of an element's access, checked in the order of R150. -/
def reachElem (x : GCtx) (g : Agent) (need : Need) (shape : MemShape) (i n : Nat) (s : State) :
    Except (Stop × Word) (List Piece) × State :=
  let va := elemAddr x s.hart shape i
  if !canonical va then (.error (.nonCanonical, va), s)
  else
    match boundStop s.hart x.brim shape i with
    | some e => (.error (e, va), s)
    | none =>
      match s.reachAll g need va n with
      | (.ok p, s1) => (.ok p, s1)
      | (.error e, s1) => (.error (e, va), s1)

/-- The 32-byte words of DRAM that pieces touch. -/
def wordsOf (ps : List Piece) : List Nat :=
  ps.flatMap fun p => match p.place with
    | .here l => if inDram l && decide (p.len ≠ 0) then
        tabulate ((l + p.len - 1) / 32 - l / 32 + 1) fun i => (l / 32 + i) * 32
      else []
    | .away _ => []

/-- The requests of the words that pieces touch, counted (R336): a member asks once for each word that its element group
touches (R397; assumption log 60). -/
def Acc.countPieces (a : Acc) (crown : Bool) (ps : List Piece) : Acc :=
  (wordsOf ps).foldl (fun a l =>
    if a.words.contains l then a else { a with s := a.s.countWord crown l, words := l :: a.words }) a

/-- A finding of a memory element: it waits, or faults. -/
def Acc.memStop (a : Acc) (x : GCtx) (pos : Nat) (load : Bool) (access : Nat) (e : Stop) (va : Word) (errs : List Piece) : Acc :=
  match e with
  | .wait => { a with pending := true, seen := true }
  | _ => a.fail x pos load access (.mem e va) errs

/-- The bytes that stand for data which a read could not deliver: a free value (R330). -/
def State.lostBytes (s : State) (n : Nat) : List Byte := tabulate n fun k => Config.lostByte s.draws k

/-- A word among those of local pieces delivers nothing in the step in hand (R330). -/
def State.undelivered (s : State) (ps : List Piece) : Bool :=
  s.failing.any fun u => ps.any fun p =>
    match p.place with
    | .here l => decide (u < l + p.len) && decide (l < u + 32)
    | .away _ => false

/-- The EVENT of an element whose read delivers nothing for want of an answer or a route: place code 10 (R330, R389,
R414). The subject is the stack that holds the element, or the home stack where another package does (assumption
log 105). -/
def State.reportUndelivered (s : State) (ps : List Piece) : State :=
  match ps with
  | p :: _ =>
    s.report 0x0020 (match p.place with
        | .here l => BitVec.ofNat 32 (stackOf l)
        | .away _ => (homeOf s.hart.id).setWidth 32)
      [10, BitVec.ofNat 64 (s.placePa p.place), readerWord (some s.hart.id)]
  | [] => s

/-- Element bits loaded into a register: at the access width, and at SEW 4 both nibbles of the byte. -/
def Acc.putLoaded (a : Acc) (x : GCtx) (poisoned : Bool) (d w i : Nat) (bytes : List Byte) : Acc :=
  a.put x.brim poisoned d w i (leNat bytes)

/-- A load or gather (R148 to R150, R330). A brim read that cannot deliver any data is an uncorrectable error of its element
(R330). R76 leaves the elements of a group unordered: they are performed in ascending order, which an indexed load onto its
own index register at SEW 64 can tell (assumption log 103). -/
def runLoad (x : GCtx) (d : Nat) (g : Agent) (shape : MemShape) (acc : Acc) : Acc :=
  let (w, wm) := memWidth x.lane.w shape
  overActive x wm (x.elems wm) (fun i acc =>
    let pos := govBit wm i
    if acc.fault.isSome || decide (x.limit < pos) then acc
    else
      let r0 := acc.readSrcs x pos false (indexSrcs x.brim shape i)
      let acc := r0.1
      if acc.fault.isSome then acc
      else
        match reachElem x g ⟨true, false, false⟩ shape i (w / 8) acc.s with
        | (.error (e, va), s1) => { acc with s := s1 }.memStop x pos true 1 e va []
        | (.ok ps, s1) =>
          match readPieces g x.turn ps s1 with
          | (.error e, s2) =>
            if x.brim && decide (e = .remote) then
              if pos < x.limit then
                let s3 := (s2.reportUndelivered ps).draw.onHart fun h => h.recordBrim 21 (bankOfElem w i)
                { { acc with s := s3 }.put x.brim true d w i (leNat (s2.lostBytes (w / 8))) with seen := true }
              else { acc with seen := true }
            else { acc with s := s2 }.memStop x pos true 1 e (elemAddr x acc.s.hart shape i) []
          | (.ok (bytes, bad), s2) =>
            if bad && !x.brim then
              ({ acc with s := s1 }.countPieces true ps).memStop x pos true 1 .data (elemAddr x acc.s.hart shape i) ps
            else if pos < x.limit then
              let lost := x.brim && s2.undelivered ps
              let acc3 := { acc with s := if lost then s2.draw else s2 }.countPieces (!x.brim) ps
              let s4 := if bad then
                  (ps.foldl (fun s p => s.reportPiece p) acc3.s).onHart fun h => h.recordBrim 21 (bankOfElem w i)
                else acc3.s
              { { acc3 with s := s4 }.put x.brim (bad || r0.2) d w i
                  (leNat (if lost then s2.lostBytes (w / 8) else bytes)) with seen := true }
            else { acc with seen := true }) acc

/-- A store or scatter (R148 to R151, R331). -/
def runStore (x : GCtx) (v : Nat) (g : Agent) (shape : MemShape) (acc : Acc) : Acc :=
  let (w, wm) := memWidth x.lane.w shape
  overActive x wm (x.elems wm) (fun i acc =>
    let pos := govBit wm i
    if acc.fault.isSome || decide (x.limit < pos) then acc
    else
      let r0 := acc.readSrcs x pos false (indexSrcs x.brim shape i ++ [⟨x.brim, v, w, i⟩])
      let acc := r0.1
      if acc.fault.isSome then acc
      else
        match reachElem x g ⟨false, true, false⟩ shape i (w / 8) acc.s with
        | (.error (e, va), s1) => { acc with s := s1 }.memStop x pos false 2 e va []
        | (.ok ps, s1) =>
          if pos < x.limit && ps.any (s1.pieceHeld g x.turn) then { acc with s := s1, pending := true, seen := true }
          else if pos < x.limit then
            let acc2 := { acc with s := s1 }.countPieces (!x.brim) ps
            let s3 := writePieces g x.turn r0.2 x.order ps (toBytes (acc.read x.brim v w i) (w / 8)) acc2.s
            { acc2 with s := s3, seen := true }
          else { acc with seen := true }) acc

/-! ## The window (R206, R207) -/

/-- The scratchpad location of a copy's entry: copy `l`, entry `j` (assumption log 11). -/
def copyLoc (core : BitVec 7) (win : Window) (w l j : Nat) : Nat :=
  scratchBase core.toNat + (low32 win.area).toNat + (l * win.entries + j) * (w / 8)

/-- `vwred` (R206). -/
def runWindowAdd (x : GCtx) (a b : Nat) (win : Window) (acc : Acc) : Acc :=
  let w := x.lane.w
  let wx := max w 32
  let q := x.elems wx / x.n
  overActive x wx (x.elems wx) (fun i acc =>
    let pos := govBit wx i
    if acc.fault.isSome || decide (x.limit < pos) then acc
    else
      let r0 := acc.readSrcs x pos false [⟨false, b, 32, i⟩, ⟨false, a, w, i⟩]
      let acc := r0.1
      if acc.fault.isSome then acc
      else
        let k := intOf 32 true (acc.read false b 32 i)
        if k < 0 ∨ (win.entries : Int) ≤ k then acc.fail x pos false 3 (.mem (.bound (wrap64 k)) 0) []
        else
          let l := copyLoc (coreOf acc.s.hart.id) win w (32 * (i % q) / q) k.toNat
          if acc.s.readFails l (w / 8) then
            acc.fail x pos false 3 (.mem .data (BitVec.ofNat 64 (l - scratchBase (coreOf acc.s.hart.id).toNat)
              + 0xFFFFFFF000000000)) [⟨0, w / 8, .here l, none⟩]
          else if pos < x.limit then
            let r := windowOp win.op x.lane (leNat (acc.s.readLoc l (w / 8))) (acc.read false a w i)
            { { acc with s := acc.s.writeLoc l (toBytes r.1 (w / 8)) }.raise r.2 with seen := true }
          else { acc with seen := true }) acc

/-- The copies folded into an entry in lane order (R207). -/
def foldCopies (s : State) (core : BitVec 7) (win : Window) (l : Lane) (j : Nat) (v : Nat) : Nat × Flags :=
  upTo 32 (v, noFlags) fun r k =>
    let n := windowOp win.op l r.1 (leNat (s.readLoc (copyLoc core win l.w k j) (l.w / 8)))
    (n.1, r.2 ||| n.2)

/-- The number under which the requests of an entry that lies in another package are kept. -/
def mergePart (j : Nat) : Nat := 64 + j

/-- The newest request of the current hart for a window entry. -/
def State.mergeAsk (s : State) (j : Nat) : Option RemoteRequest :=
  s.remote.reverse.find? fun r => decide (r.owner = .hart s.hart.id) && decide (r.part = mergePart j)

/-- A request for a window entry sent; the member waits for its answer. -/
def Acc.askMerge (a : Acc) (j pa : Nat) (va : Word) (k : RemoteKind) : Acc :=
  { a with s := a.s.requestAs (.hart a.s.hart.id) (mergePart j) pa va k .sent, pending := true, seen := true }

/-- The bytes of another package that the update of a window entry goes through: the aligned word of 4 or 8 bytes that
holds the entry, where one does and the copies hold no error; else the entry's own bytes. -/
def mergeSpan (pa n : Nat) (bad : Bool) : Nat × Nat :=
  if bad || decide (pa / 8 ≠ (pa + n - 1) / 8) then (pa, n)
  else if pa / 4 = (pa + n - 1) / 4 then (pa / 4 * 4, 4)
  else (pa / 8 * 8, 8)

/-- The request that replaces bytes of another package where they still are `old`: a compare-and-swap of a word, or an
update of bytes that no word holds or that become poisoned (assumption log 12). -/
def mergeRequest (span : Nat × Nat) (bad : Bool) (old new : List Byte) : RemoteKind :=
  if !bad && decide (span.2 = 4 ∨ span.2 = 8) && decide (span.1 % span.2 = 0) then
    .atomic .cas (decide (span.2 = 8)) (wordOf new) (wordOf old)
  else .update old new bad

/-- The bytes that a request to replace expects; `none` of another request. -/
def RemoteKind.expects (k : RemoteKind) : Option (List Byte) :=
  match k with
  | .atomic _ wide _ expected => some (bytesOf expected (if wide then 8 else 4))
  | .update old _ _ => some old
  | _ => none

/-- An entry of `vwmerge` in another package (R108, R207): its bytes are read, and replaced at their home where they have
not changed since, over again while another agent has changed them; so the update is indivisible there (assumption
log 12). An entry whose copies hold an error is written poisoned (R350). -/
def mergeAway (x : GCtx) (win : Window) (j pa n : Nat) (va : Word) (acc : Acc) : Acc :=
  let core := coreOf acc.s.hart.id
  let bad := (List.range 32).any fun k => acc.s.readFails (copyLoc core win x.lane.w k j) n
  let span := mergeSpan pa n bad
  let folded (off : Nat) (d : List Byte) : Nat × Flags := foldCopies acc.s core win x.lane j (leNat ((d.drop off).take n))
  match acc.s.mergeAsk j with
  | none => acc.askMerge j span.1 va (.read span.2)
  | some r =>
    match r.status with
    | .sent => { acc with pending := true, seen := true }
    | .failed => acc.fail x (j * n) false 11 (.mem .remote va) []
    | .answered d =>
      if r.kind.expects = some d then
        let copies : List Piece := (List.range 32).map fun k => ⟨va, n, .here (copyLoc core win x.lane.w k j), none⟩
        let s1 := if bad then copies.foldl (fun s p => s.reportPiece p) acc.s else acc.s
        { acc with s := s1, flags := acc.flags ||| (folded (pa - r.pa) d).2, seen := true }
      else if r.pa = span.1 ∧ d.length = span.2 then
        let off := pa - span.1
        acc.askMerge j span.1 va
          (mergeRequest span bad d (d.take off ++ toBytes (folded off d).1 n ++ d.drop (off + n)))
      else acc.askMerge j span.1 va (.read span.2)

/-- The bytes of an entry that lies in another package in one run: its address there. -/
def awayRun (ps : List Piece) : Option Nat :=
  match ps with
  | [⟨_, _, .away pa, _⟩] => some pa
  | [⟨_, n, .away pa, _⟩, ⟨_, _, .away pb, _⟩] => if pb = pa + n then some pa else none
  | _ => none

/-- One entry of `vwmerge`: its read and write are one action at its home. An entry that meets an error is written
poisoned (R350). One that has two homes, in two packages, is read and written part by part (assumption log 12). -/
def mergeEntry (x : GCtx) (win : Window) (j : Nat) (acc : Acc) : Acc :=
  let n := x.lane.w / 8
  let va := win.base + BitVec.ofNat 64 (j * n)
  if acc.fault.isSome then acc
  else
    match acc.s.reachAll .vector ⟨true, true, false⟩ va n with
    | (.error e, s1) => { acc with s := s1 }.memStop x (j * n) false 11 e va []
    | (.ok ps, s1) =>
      match awayRun ps with
      | some pa => mergeAway x win j pa n va { acc with s := s1 }
      | none =>
        match readPieces .vector x.turn ps s1 with
        | (.error e, s2) => { acc with s := s2 }.memStop x (j * n) false 11 e va []
        | (.ok (bytes, bad), s2) =>
          let core := coreOf s2.hart.id
          let copies : List Piece :=
            (List.range 32).map fun k => ⟨va, n, .here (copyLoc core win x.lane.w k j), none⟩
          let copiesBad := (List.range 32).any fun k => s2.readFails (copyLoc core win x.lane.w k j) n
          let s3 := if bad || copiesBad then (ps ++ copies).foldl (fun s p => s.reportPiece p) s2 else s2
          let r := foldCopies s2 core win x.lane j (leNat bytes)
          let acc4 := { acc with s := s3 }.countPieces true ps
          let s4 := writePieces .vector x.turn (bad || copiesBad) x.order ps (toBytes r.1 n) acc4.s
          { acc4 with s := s4, flags := acc.flags ||| r.2, seen := true }

/-- A group of `vwmerge`: entries 256/w × g onward that are not merged yet. -/
def runWindowMerge (x : GCtx) (win : Window) (acc : Acc) : Acc :=
  let per := 256 / x.lane.w * 8
  upTo per acc fun acc k =>
    let j := x.g * per + k
    if j < win.entries ∧ win.merged ≤ j then mergeEntry x win j acc else acc

end Sys2Proof.Machine
end

