-- ==== Sys2Proof/Machine/Operands.lean ====
section
/-! DEFINITION. Operands.lean: the operand forms of the scalar stream (R45, R47, R60): compressed register fields, sign
extension of immediates, the registers and masks that an instruction names (for the interlocks of R81), and the CSR
numbers that are assigned (R112, R412). -/

namespace Sys2Proof.Machine

/-- A three-bit register field of a compressed form names x(c′+1) (R45). -/
def cReg (c : BitVec 3) : BitVec 5 := c.setWidth 5 + 1

/-- The target of a branch or jump whose immediate counts halfwords (R48, R101, R102). -/
def branchTarget {n : Nat} (pc : Word) (imm : BitVec n) : Word := pc + sext imm <<< 1

/-- The address of a load or store (R98). -/
def memAddr (base : Word) (imm : BitVec 10) : Word := base + sext imm

/-- The x registers that an instruction of the scalar stream names. -/
def xregs (i : Instr) : List (BitVec 5) :=
  match i with
  | .ldB d a _ => [d, a]
  | .ldBn d a _ => [d, a]
  | .ldH d a _ => [d, a]
  | .ldHn d a _ => [d, a]
  | .ldW d a _ => [d, a]
  | .ldWn d a _ => [d, a]
  | .ldD d a _ => [d, a]
  | .ldAcqW d a _ => [d, a]
  | .ldAcqD d a _ => [d, a]
  | .stRelW b a _ => [b, a]
  | .stRelD b a _ => [b, a]
  | .amoadd _ d b a _ => [d, b, a]
  | .amoand _ d b a _ => [d, b, a]
  | .amoor _ d b a _ => [d, b, a]
  | .amoxor _ d b a _ => [d, b, a]
  | .amomin _ d b a _ => [d, b, a]
  | .amomax _ d b a _ => [d, b, a]
  | .amoswap _ d b a _ => [d, b, a]
  | .amocas _ d b a _ => [d, b, a]
  | .amoaddAcqrel _ d b a _ => [d, b, a]
  | .amoandAcqrel _ d b a _ => [d, b, a]
  | .amoorAcqrel _ d b a _ => [d, b, a]
  | .amoxorAcqrel _ d b a _ => [d, b, a]
  | .amominAcqrel _ d b a _ => [d, b, a]
  | .amomaxAcqrel _ d b a _ => [d, b, a]
  | .amoswapAcqrel _ d b a _ => [d, b, a]
  | .amocasAcqrel _ d b a _ => [d, b, a]
  | .csrr d _ => [d]
  | .csrw d _ a => [d, a]
  | .csrs d _ a => [d, a]
  | .csrc d _ a => [d, a]
  | .vcfg d _ _ _ => [d]
  | .copyL d a b => [d, a, b]
  | .copy2d d a b => [d, a, b]
  | .copyG d a _ => [d, a]
  | .copyS d a _ => [d, a]
  | .embw d a b => [d, a, b]
  | .stprobe _ _ a b => [a, b]
  | .stfill _ a b _ => [a, b]
  | .stctlStream a b => [a, b]
  | .stctlAsid a b => [a, b]
  | .stctlAll a b => [a, b]
  | .cname n a b => [n, a, b]
  | .collAllReduce n a b => [n, a, b]
  | .collAllGather n a b => [n, a, b]
  | .collReduceScatter n a b => [n, a, b]
  | .pmig a b => [a, b]
  | .awadd a b _ => [a, b]
  | .carrive a b => [a, b]
  | .launch d a => [d, a]
  | .farmnext d => [d]
  | .cLdW d a _ => [cReg d, cReg a]
  | .cLdD d _ => [cReg d, 30]
  | .mshape xs => [xs]
  | .mmag _ _ _ xs _ _ _ _ _ => [xs]
  | .mtv _ _ xs => [xs]
  | .mvt _ _ xs => [xs]
  | .add d a b => [d, a, b]
  | .sub d a b => [d, a, b]
  | .and d a b => [d, a, b]
  | .or d a b => [d, a, b]
  | .xor d a b => [d, a, b]
  | .andn d a b => [d, a, b]
  | .sll d a b => [d, a, b]
  | .srl d a b => [d, a, b]
  | .sra d a b => [d, a, b]
  | .slt d a b => [d, a, b]
  | .sltn d a b => [d, a, b]
  | .min d a b => [d, a, b]
  | .minn d a b => [d, a, b]
  | .max d a b => [d, a, b]
  | .maxn d a b => [d, a, b]
  | .mul d a b => [d, a, b]
  | .mulh d a b => [d, a, b]
  | .mulhn d a b => [d, a, b]
  | .div d a b => [d, a, b]
  | .divn d a b => [d, a, b]
  | .rem d a b => [d, a, b]
  | .remn d a b => [d, a, b]
  | .clz d a => [d, a]
  | .ctz d a => [d, a]
  | .popc d a => [d, a]
  | .sextB d a => [d, a]
  | .sextH d a => [d, a]
  | .sextW d a => [d, a]
  | .zextW d a => [d, a]
  | .addw d a b => [d, a, b]
  | .subw d a b => [d, a, b]
  | .sllw d a b => [d, a, b]
  | .srlw d a b => [d, a, b]
  | .sraw d a b => [d, a, b]
  | .mulw d a b => [d, a, b]
  | .divw d a b => [d, a, b]
  | .divnw d a b => [d, a, b]
  | .remw d a b => [d, a, b]
  | .remnw d a b => [d, a, b]
  | .addi d a _ => [d, a]
  | .andi d a _ => [d, a]
  | .ori d a _ => [d, a]
  | .xori d a _ => [d, a]
  | .slti d a _ => [d, a]
  | .sltni d a _ => [d, a]
  | .slli d a _ => [d, a]
  | .srli d a _ => [d, a]
  | .srai d a _ => [d, a]
  | .lhi d _ => [d]
  | .pcadd d _ => [d]
  | .stB b a _ => [b, a]
  | .stH b a _ => [b, a]
  | .stW b a _ => [b, a]
  | .stD b a _ => [b, a]
  | .beq a b _ => [a, b]
  | .bne a b _ => [a, b]
  | .blt a b _ => [a, b]
  | .bge a b _ => [a, b]
  | .bltn a b _ => [a, b]
  | .bgen a b _ => [a, b]
  | .bbs a b _ => [a, b]
  | .bbc a b _ => [a, b]
  | .jal d _ => [d]
  | .jalr d a _ => [d, a]
  | .loop _ a _ => [a]
  | .fadd _ d a b => [d, a, b]
  | .fsub _ d a b => [d, a, b]
  | .fmul _ d a b => [d, a, b]
  | .fdiv _ d a b => [d, a, b]
  | .fsqrt _ d a => [d, a]
  | .fmin _ d a b => [d, a, b]
  | .fmax _ d a b => [d, a, b]
  | .fsgnj _ d a b => [d, a, b]
  | .fsgnjn _ d a b => [d, a, b]
  | .fsgnjx _ d a b => [d, a, b]
  | .feq _ d a b => [d, a, b]
  | .flt _ d a b => [d, a, b]
  | .fle _ d a b => [d, a, b]
  | .fclass _ d a => [d, a]
  | .fcvtI _ _ d a => [d, a]
  | .fcvtF _ _ d a => [d, a]
  | .fcvtFf _ _ d a => [d, a]
  | .fma _ d a b e => [d, a, b, e]
  | .fms _ d a b e => [d, a, b, e]
  | .fnma _ d a b e => [d, a, b, e]
  | .fnms _ d a b e => [d, a, b, e]
  | .whileLt _ a b => [a, b]
  | .whileLe _ a b => [a, b]
  | .whileLtn _ a b => [a, b]
  | .whileLen _ a b => [a, b]
  | .mbset _ a => [a]
  | .mbclr _ a => [a]
  | .mpop d _ _ => [d]
  | .mfirst d _ _ => [d]
  | .awarm a b => [a, b]
  | .waitGen a b _ => [a, b]
  | .waitNe a b _ => [a, b]
  | .cwait a b => [a, b]
  | .cAddi d _ => [cReg d]
  | .cLi d _ => [cReg d]
  | .cLhi d _ => [cReg d]
  | .cSlli d _ => [cReg d]
  | .cSrli d _ => [cReg d]
  | .cSrai d _ => [cReg d]
  | .cAdd d a => [cReg d, cReg a]
  | .cSub d a => [cReg d, cReg a]
  | .cMv d a => [cReg d, cReg a]
  | .cAnd d a => [cReg d, cReg a]
  | .cOr d a => [cReg d, cReg a]
  | .cXor d a => [cReg d, cReg a]
  | .cStW b a _ => [cReg b, cReg a]
  | .cStD b _ => [cReg b, 30]
  | .cBeqz a _ => [cReg a]
  | .cBnez a _ => [cReg a]
  | .cJr a => [a]
  | .cJalr a => [a, 31]
  | .cRet => [31]
  | _ => []

/-- The x registers that a vector instruction reads through its fields [25:21] and [30:26] (R55, R78). -/
def scalarFields (i : Instr) : Option (BitVec 5) × Option (BitVec 5) :=
  match i with
  | .vaddX _ _ a _ _ _ => (some a, none)
  | .vrsubX _ _ a _ _ _ => (some a, none)
  | .vmulX _ _ a _ _ _ => (some a, none)
  | .vsllX _ _ a _ _ _ => (some a, none)
  | .vfaddX _ _ a _ _ _ => (some a, none)
  | .vfrsubX _ _ a _ _ _ => (some a, none)
  | .vfmulX _ _ a _ _ _ => (some a, none)
  | .vfmaX _ _ a _ _ _ => (some a, none)
  | .vslideup _ _ _ b _ _ => (none, some b)
  | .vslidedn _ _ _ b _ _ => (none, some b)
  | .vdup _ _ a _ _ => (some a, none)
  | .vext _ _ _ b _ => (none, some b)
  | .vins _ _ a b _ => (some a, some b)
  | .vld _ _ a _ _ => (some a, none)
  | .vldAcq _ a _ _ => (some a, none)
  | .vldV _ a _ _ => (some a, none)
  | .vldL _ a _ _ => (some a, none)
  | .vldNt _ a _ _ => (some a, none)
  | .vstV _ a _ _ => (some a, none)
  | .vstL _ a _ _ => (some a, none)
  | .vstNt _ a _ _ => (some a, none)
  | .vst _ _ a _ _ => (some a, none)
  | .vlds _ _ a b _ _ => (some a, some b)
  | .vsts _ _ a b _ _ => (some a, some b)
  | .vldsAcq _ a b _ _ => (some a, some b)
  | .vldsV _ a b _ _ => (some a, some b)
  | .vldsL _ a b _ _ => (some a, some b)
  | .vldsNt _ a b _ _ => (some a, some b)
  | .vstsV _ a b _ _ => (some a, some b)
  | .vstsL _ a b _ _ => (some a, some b)
  | .vstsNt _ a b _ _ => (some a, some b)
  | .vldx _ a _ _ _ => (some a, none)
  | .vldxB _ a _ _ _ => (some a, none)
  | .vldxBd _ a _ _ _ => (some a, none)
  | .vldxV _ a _ _ _ => (some a, none)
  | .vldxL _ a _ _ _ => (some a, none)
  | .vldxVbd _ a _ _ _ => (some a, none)
  | .vldxLbd _ a _ _ _ => (some a, none)
  | .vstx _ a _ _ _ => (some a, none)
  | .vstxB _ a _ _ _ => (some a, none)
  | .vstxBd _ a _ _ _ => (some a, none)
  | .vstxV _ a _ _ _ => (some a, none)
  | .vstxL _ a _ _ _ => (some a, none)
  | .vstxVbd _ a _ _ _ => (some a, none)
  | .vstxLbd _ a _ _ _ => (some a, none)
  | .vwin _ a b => (some a, some b)
  | _ => (none, none)

/-- The masks that an instruction of the scalar stream names. -/
def maskRegs (i : Instr) : List (BitVec 5) :=
  match i with
  | .stprobe m _ _ _ => [m.setWidth 5]
  | .stfill _ _ _ g => [g.setWidth 5]
  | .whileLt m _ _ => [m]
  | .whileLe m _ _ => [m]
  | .whileLtn m _ _ => [m]
  | .whileLen m _ _ => [m]
  | .mand d a b g => [d, a, b, g.setWidth 5]
  | .mor d a b g => [d, a, b, g.setWidth 5]
  | .mxor d a b g => [d, a, b, g.setWidth 5]
  | .mandn d a b g => [d, a, b, g.setWidth 5]
  | .mnot d a g => [d, a, g.setWidth 5]
  | .mmov d a g => [d, a, g.setWidth 5]
  | .mff d a g => [d, a, g.setWidth 5]
  | .mset d g => [d, g.setWidth 5]
  | .mclr d g => [d, g.setWidth 5]
  | .mbset d _ => [d]
  | .mbclr d _ => [d]
  | .mpop _ a g => [a, g.setWidth 5]
  | .mfirst _ a g => [a, g.setWidth 5]
  | .mbrk d a g => [d, a, g.setWidth 5]
  | _ => []

/-- A CSR number is assigned (R412). -/
def csrAssigned (n : BitVec 11) : Bool :=
  let k := n.toNat
  decide (k ≤ 0x014) || (decide (0x018 ≤ k) && decide (k ≤ 0x01C)) || (decide (0x020 ≤ k) && decide (k ≤ 0x025)) ||
    (decide (0x028 ≤ k) && decide (k ≤ 0x02C)) || (decide (0x040 ≤ k) && decide (k ≤ 0x045)) ||
    decide (k = 0x050) || decide (k = 0x051) || (decide (0x100 ≤ k) && decide (k ≤ 0x10A)) ||
    (decide (0x200 ≤ k) && decide (k ≤ 0x204)) || (decide (0x300 ≤ k) && decide (k ≤ 0x306)) ||
    (decide (0x310 ≤ k) && decide (k ≤ 0x313)) || (decide (0x320 ≤ k) && decide (k ≤ 0x323)) ||
    (decide (0x330 ≤ k) && decide (k ≤ 0x333)) || decide (k = 0x340) || decide (k = 0x341) ||
    (decide (0x350 ≤ k) && decide (k ≤ 0x354))

/-- A CSR that a mode may name: assigned, and a user CSR in user mode (R112). -/
def csrAllowed (m : Mode) (n : BitVec 11) : Bool := csrAssigned n && (decide (m = .supervisor) || decide (n.toNat < 0x080))

/-- A word with a scalar major is an instruction in a mode (R43): its encoding, and for CSR instructions, `eret`,
`uret` and `pmig` the mode that may name it. -/
def scalarOk (m : Mode) (w : BitVec 32) : Bool :=
  scalarFieldsOk (topOf w) (bOf w) (aOf w) (dOf w) (majorOf w) (lowOf w) &&
    (match (majorOf w).toNat with
     | 0x11 => csrAllowed m (topOf w ++ bOf w ++ lo5Of (lowOf w))
     | 0x10 =>
       match (f3Of (lowOf w)).toNat with
       | 2 => decide (m = .supervisor)
       | 3 => decide (m = .user)
       | _ => true
     | 0x37 => !(f4Of (lowOf w) == 10) || decide (m = .supervisor)
     | _ => true)

end Sys2Proof.Machine
end

