-- ==== Sys2Proof/Machine/Tile.lean ====
section
/-! DEFINITION. Tile.lean: what a posted matrix entry does when it completes (R216, R219, R224 to R229, R231). -/

namespace Sys2Proof.Machine

/-! ## Tile storage (R213) -/

/-- A row of a tile. -/
def Hart.tileRow (h : Hart) (t : BitVec 1) (m : Nat) : Group := h.tile.getD (64 * t.toNat + m) 0

/-- A row of a tile written; its bytes from `lo` to `hi` get parity afresh (R389). -/
def Hart.setTileRow (h : Hart) (t : BitVec 1) (m : Nat) (v : Group) (bytes : Nat) : Hart :=
  { h with
    tile := h.tile.setIfInBounds (64 * t.toNat + m) v
    badTile := if h.badTile.isEmpty then [] else outside h.badTile ((64 * t.toNat + m) * 256) bytes }

/-- Element n of a row. -/
def rowElem (r : Group) (n : Nat) : BitVec 32 := r.extractLsb' (32 * n) 32

/-- A row of a tile has a parity error. -/
def Hart.badRow (h : Hart) (t : BitVec 1) (m : Nat) : Bool :=
  h.badTile.any fun b => decide (b / 256 = 64 * t.toNat + m)

/-! ## Operands (R216) -/

/-- The width of a multiplicand format. -/
def Fmt.width : Fmt → Nat
  | .flt f => f.width
  | .e8m0 => 8
  | .int w _ => w

/-- A multiplicand's value. -/
def Fmt.value (f : Fmt) (bits : Nat) : FVal :=
  match f with
  | .flt e => decodeF e bits
  | _ => .nan

/-- K of a width. -/
def kOf (w : Nat) : Nat := 8 * (32 / w)

/-- A[m][k] as bits. -/
def MatrixEntry.aBits (e : MatrixEntry) (h : Hart) (m k : Nat) : Nat :=
  let w := (fmtOf e.fa).width
  h.elemAt false e.va.toNat w (m * kOf w + k)

/-- B[k][n] as bits, from the octet that begins at `vb`. -/
def MatrixEntry.bBits (e : MatrixEntry) (h : Hart) (vb k n : Nat) : Nat :=
  let w := (fmtOf e.fb).width
  h.elemAt false (vb + k / (32 / w)) w (n * (32 / w) + k % (32 / w))

/-- A product as R38 takes it: its value, and whether it is 0 times infinity. -/
def MatrixEntry.product (e : MatrixEntry) (a b : Nat) : FVal × Bool :=
  let r := mulF ((fmtOf e.fa).value a) ((fmtOf e.fb).value b)
  (r.1, decide (r.2 ≠ noFlags))

/-- A value times a power of two. -/
def FVal.scale (v : FVal) (k : Int) : FVal :=
  match v with
  | .num s m x => .num s m (x + k)
  | v => v

/-- A product with its block scales (R40, R227). -/
def MatrixEntry.scaled (e : MatrixEntry) (h : Hart) (m n k : Nat) (p : FVal × Bool) : FVal × Bool :=
  let sa := h.elemAt false e.vx.toNat 8 (2 * m + k / 32)
  let sb := h.elemAt false e.vx.toNat 8 (128 + 2 * n + k / 32)
  if sa = 255 ∨ sb = 255 then (.nan, false) else (p.1.scale ((sa : Int) - 127 + ((sb : Int) - 127)), p.2)

/-- The kept positions of quad j of row m: position and element of vA (R226). -/
def MatrixEntry.kept (e : MatrixEntry) (h : Hart) (m j : Nat) : List (Nat × Nat) :=
  let w := (fmtOf e.fa).width
  let q := m * (kOf w / 4) + j
  let nib := h.elemAt false e.vx.toNat 4 q
  let lo := nib % 4
  let hi := nib / 4
  if lo = hi then [(4 * j + hi, 2 * q + 1)] else [(4 * j + lo, 2 * q), (4 * j + hi, 2 * q + 1)]

/-- The products of element [m][n]. -/
def MatrixEntry.products (e : MatrixEntry) (h : Hart) (vb m n : Nat) : List (FVal × Bool) :=
  let w := (fmtOf e.fa).width
  match e.op with
  | .mmas =>
    (List.range (kOf w / 4)).flatMap fun j =>
      (e.kept h m j).map fun p => e.product (h.elemAt false e.va.toNat w p.2) (e.bBits h vb p.1 n)
  | .mmax => tabulate (kOf w) fun k => e.scaled h m n k (e.product (e.aBits h m k) (e.bBits h vb k n))
  | _ => tabulate (kOf w) fun k => e.product (e.aBits h m k) (e.bBits h vb k n)

/-- The integer products of element [m][n] (R39). -/
def MatrixEntry.intProducts (e : MatrixEntry) (h : Hart) (vb m n : Nat) : List Int :=
  tabulate 32 fun k => intOf 8 true (e.aBits h m k) * intOf 8 true (e.bBits h vb k n)

/-- The new element [m][n] (R225). -/
def MatrixEntry.element (e : MatrixEntry) (h : Hart) (vb m n : Nat) (old : BitVec 32) : BitVec 32 :=
  if e.int then intAcc old (e.intProducts h vb m n) e.neg e.sat e.ovw
  else
    let ps := e.products h vb m n
    let ts := ps.map fun p => if e.neg then p.1.neg else p.1
    accTerms e.sat (ps.any fun p => p.2) (if e.ovw then ts else ts ++ [decodeF .fp32 old.toNat])

/-- Row m with the octet at `vb`. -/
def MatrixEntry.row (e : MatrixEntry) (h : Hart) (vb m : Nat) : Group :=
  upTo e.n (h.tileRow e.tile m) fun r n => putBits r (32 * n) 32 (e.element h vb m n (rowElem r n)).toNat

/-- Rows lo to lo+k−1 formed with the octet at `vb`. -/
def MatrixEntry.rowsFrom (e : MatrixEntry) (vb lo k : Nat) (h : Hart) : Hart :=
  upTo k h fun x i => x.setTileRow e.tile (lo + i) (e.row h vb (lo + i)) (4 * e.n)

/-- The three row counts of `mmag` (R228). -/
def rowCounts (xs : Word) : List Nat := [(field xs 0 16).toNat, (field xs 16 16).toNat, (field xs 32 16).toNat]

/-- The groups of `mmag`: octet, first row and count. -/
def ragged (vb : Nat) (xs : Word) : List (Nat × Nat × Nat) :=
  match rowCounts xs with
  | [a, b, c] => [(vb, 0, a), (vb + 8, a, b), (vb + 16, a + b, c)]
  | _ => []

/-! ## Completion -/

/-- A read of a vector register by an entry: the register, and the bytes from its start. -/
structure RegRead where
  reg : Nat
  bytes : Nat
  /-- The bytes are the block scales of `mmax`, not all of which are read (R227). -/
  scales : Bool
  deriving DecidableEq, Repr

/-- What an entry reads of vector registers. -/
def MatrixEntry.regReads (e : MatrixEntry) : List RegRead :=
  let oct (vb : Nat) : List RegRead := (List.range 8).map fun j => ⟨vb + j, 4 * e.n, false⟩
  let w := (fmtOf e.fa).width
  match e.op with
  | .mma => ⟨e.va.toNat, 32 * e.m, false⟩ :: oct e.vb.toNat
  | .mmas => ⟨e.va.toNat, 16 * e.m, false⟩ :: oct e.vb.toNat ++ [⟨e.vx.toNat, (e.m * kOf w + 7) / 8, false⟩]
  | .mmax => ⟨e.va.toNat, 32 * e.m, false⟩ :: oct e.vb.toNat ++ [⟨e.vx.toNat, 256, true⟩]
  | .mmag =>
    let used := (ragged e.vb.toNat e.xs).filter fun g => decide (g.2.2 ≠ 0)
    (if used.isEmpty then [] else [⟨e.va.toNat, 32 * ((rowCounts e.xs).sum), false⟩]) ++ used.flatMap fun g => oct g.1
  | .mvt => [⟨e.va.toNat, 256 * e.count.groups, false⟩]
  | _ => []

/-- A byte of vX that `mmax` reads: a scale of one of its M rows or N columns, of a block that K has (R227). -/
def MatrixEntry.scaleByte (e : MatrixEntry) (b : Nat) : Bool :=
  decide (b % 2 < kOf (fmtOf e.fa).width / 32) &&
    (if b < 128 then decide (b / 2 < e.m) else decide ((b - 128) / 2 < e.n))

/-- The vector registers that an entry reads or writes. -/
def MatrixEntry.regs (e : MatrixEntry) : List Nat :=
  match e.op with
  | .mtv => [e.va.toNat]
  | _ => e.regReads.map RegRead.reg

/-- Row groups that an `mtv` has written: the others still stand in the entry (R229). -/
def MatrixEntry.written (e : MatrixEntry) : Nat := e.count.groups - e.rows.length

/-- The rows of its tile that an entry reads. -/
def MatrixEntry.rowReads (e : MatrixEntry) : List Nat :=
  match e.op with
  | .mma => if e.ovw then [] else List.range e.m
  | .mmas => if e.ovw then [] else List.range e.m
  | .mmax => if e.ovw then [] else List.range e.m
  | .mmag => if e.ovw then [] else List.range ((rowCounts e.xs).sum)
  | _ => []

/-- The effect of an entry on its hart. An `mtv` writes one row group, the next, so that a consumer of a group waits for
that one alone: R219's whole result at once gives way to R229 here (assumption log 95). -/
def MatrixEntry.run (e : MatrixEntry) (h : Hart) : Hart :=
  match e.op with
  | .zero =>
    { (upTo 64 h fun x m => x.setTileRow e.tile m 0 256) with
      tilePoison := h.tilePoison.setIfInBounds e.tile.toNat none }
  | .mmag =>
    let h1 := (ragged e.vb.toNat e.xs).foldl (fun x g => e.rowsFrom g.1 g.2.1 g.2.2 x) h
    let skipped := ((rowCounts e.xs).filter fun c => decide (c = 0)).length
    { h1 with csr := { h1.csr with mskip := h1.csr.mskip + BitVec.ofNat 64 skipped } }
  | .mtv =>
    let slot := e.va.toNat * e.count.groups + e.written
    { h with
      v := h.v.setIfInBounds slot (e.rows.headD 0)
      badCrown := if h.badCrown.isEmpty then [] else outside h.badCrown (slot * 256) 256 }
  | .mvt =>
    let g := e.count.groups
    upTo g h fun x i => x.setTileRow e.tile ((field e.xs 0 6).toNat + i) (h.v.getD (e.va.toNat * g + i) 0) 256
  | _ => e.rowsFrom e.vb.toNat 0 e.m h

/-- The lowest element, at the width in force, of the group that holds byte `b` of a register. -/
def Hart.firstElemAt (h : Hart) (b : Nat) : BitVec 32 := BitVec.ofNat 32 (b / 256 * (2048 / h.elem.width))

/-- The parity errors that an entry meets, one for each register group and each tile row that it reads: what holds them,
0 to 31 for a register and 64 or 65 for a tile, and the origin element (R231). Of several, the registers' come first, in
the order vA, octet, vX, then the tile's, so that order gives the recorded origin; a tile row counts whole, its columns at
or above N included (assumption log 95). -/
def MatrixEntry.errors (e : MatrixEntry) (h : Hart) : List (Nat × BitVec 32) :=
  (e.regReads.flatMap fun r =>
    let base := r.reg * e.count.groups * 256
    (List.range ((r.bytes + 255) / 256)).filterMap fun g =>
      if h.badCrown.any fun b => decide (base + 256 * g ≤ b) && decide (b < min (base + r.bytes) (base + 256 * g + 256)) &&
          (!r.scales || e.scaleByte (b - base)) then some (r.reg, h.firstElemAt (256 * g)) else none) ++
    (e.rowReads.filter fun m => h.badRow e.tile m).map fun _ => (64 + e.tile.toNat, noElement)

/-- The poison flag of a tile set, with its origin when it was clear. -/
def Hart.poisonTile (h : Hart) (t : BitVec 1) (o : Nat × BitVec 32) : Hart :=
  match h.tilePoison[t.toNat]'t.isLt with
  | some _ => h
  | none => { h with tilePoison := h.tilePoison.set t.toNat (some ⟨BitVec.ofNat 64 o.1, o.2⟩) t.isLt }

/-- The errors that an entry meets, recorded, reported and kept in the poison flag of its tile. -/
def State.poisonFrom (s : State) (t : BitVec 1) (errs : List (Nat × BitVec 32)) : State :=
  errs.foldl (fun s o => (s.crownError s.hart.id o.1).onHart fun h => h.poisonTile t o) s

/-- The head entry may complete: every convoy that was in flight at its posting has retired (R219). -/
def Hart.entryReady (h : Hart) : Option (MatrixEntry × List MatrixEntry) :=
  match h.queue with
  | e :: rest => if (h.convoys ++ h.brimConvoys).any fun c => decide (c.order < e.order) then none else some (e, rest)
  | [] => none

end Sys2Proof.Machine
end

