-- ==== Sys2Proof/Machine/Convoy.lean ====
section
/-! DEFINITION. Convoy.lean: how a convoy runs, commits, trims, traps and retires (R76 to R83, R143, R146, R147, R316,
R317, R329). -/

namespace Sys2Proof.Machine

/-! ## The parts of a convoy -/

/-- A member's parts. -/
def Member.info (m : Member) : VInfo := (vinfo m.instr).getD vwdropInfo

/-- The vector registers that a member writes, 0 to 31 crown and 32 to 63 brim. -/
def VInfo.dest (v : VInfo) : List Nat :=
  let off := match v.kind with
    | .toBrim _ _ => 32
    | .toCrown _ _ => 0
    | _ => if v.brim then 32 else 0
  v.kind.writes.map fun r => r + off

/-- The vector registers that a convoy writes. -/
def Convoy.dest (c : Convoy) : List Nat := c.members.flatMap fun m => m.info.dest

/-- The x registers that a convoy writes when it retires (R78). -/
def Convoy.writesX (c : Convoy) : List (BitVec 5) := c.members.filterMap fun m => m.info.kind.writesX

/-- The masks that a convoy writes. -/
def Convoy.writesMask (c : Convoy) : List (BitVec 5) := c.members.filterMap fun m => m.info.kind.writesMask

/-- The masks that a convoy reads or writes; m0 is constant. -/
def Convoy.masks (c : Convoy) : List (BitVec 5) :=
  c.members.flatMap fun m => m.info.g.setWidth 5 :: m.info.kind.writesMask.toList ++ m.info.kind.readsMask.toList

/-- A convoy that holds a load (R82). -/
def Convoy.hasLoad (c : Convoy) : Bool := c.members.any fun m => m.info.kind.isLoad

/-- A convoy that is a `vmovcb`. -/
def Convoy.isToBrim (c : Convoy) : Bool :=
  c.members.any fun m =>
    match m.info.kind with
    | .toBrim _ _ => true
    | _ => false

/-- Every vector register field of a convoy. -/
def Convoy.named (c : Convoy) : List Nat := c.members.flatMap fun m => m.info.kind.named

/-- Progress indices written (R80). -/
def Hart.setProgress (h : Hart) (rs : List Nat) (n : Nat) : Hart :=
  { h with progress := rs.foldl (fun p r => p.setIfInBounds r (BitVec.ofNat 6 n)) h.progress }

/-- The lane of a convoy of a hart. -/
def Hart.lane (h : Hart) (rm : BitVec 3) : Lane := ⟨h.elem.width, h.elem, rm.toNat⟩

/-! ## A group -/

/-- What member `idx` knows in the group that comes next. -/
def Convoy.ctx (c : Convoy) (h : Hart) (base limit idx : Nat) (m : Member) : GCtx where
  g := c.next
  n := h.count.groups
  lane := h.lane c.rm
  sat := c.sat
  brim := m.info.brim
  limit := limit
  mask := m.snap.getD (h.mask (m.info.g.setWidth 5))
  sa := m.sa
  sb := m.sb
  idx := idx
  begun := m.begun
  base := base
  order := c.order

/-- A member performed on a group. -/
def runMember (x : GCtx) (m : Member) (acc : Acc) : Acc :=
  match m.info.kind with
  | .lanes d a b useD op => runLanes x d.toNat (a.map BitVec.toNat) (b.map BitVec.toNat) useD none op acc
  | .lanesX d b useD op =>
    runLanes x d.toNat none (some b.toNat) useD (some (x.sa.toNat % 2 ^ x.lane.w)) op acc
  | .ident d => runIdent x d.toNat acc
  | .iota d ms => runIota x d.toNat (m.snap2.getD (acc.s.hart.mask ms)) acc
  | .cvt d a dst src => runCvt x d.toNat a.toNat dst src acc
  | .cmp md a b test => runCmp x md a.toNat b.toNat test acc
  | .slideUp d a =>
    runMove x d.toNat a.toNat (fun _ => [])
      (fun _ i => if x.sb.toNat ≤ i then .elem (i - x.sb.toNat) else .skip) acc
  | .slideDown d a =>
    runMove x d.toNat a.toNat (fun _ => [])
      (fun _ i => if i + x.sb.toNat < x.elems x.lane.w then .elem (i + x.sb.toNat) else .zero) acc
  | .perm d a b =>
    runMove x d.toNat a.toNat (fun i => [⟨x.brim, b.toNat, x.lane.w, i⟩])
      (fun acc i =>
        let j := acc.read x.brim b.toNat x.lane.w i
        if j < x.elems x.lane.w then .elem j else .zero) acc
  | .compress d a => runCompress x d.toNat a.toNat acc
  | .expand d a => runExpand x d.toNat a.toNat acc
  | .conf d a => runConf x d.toNat a.toNat acc
  | .sparse d a => runSparse x d.toNat a.toNat acc
  | .reduce _ a t => runReduce x a.toNat t acc
  | .scan d a op => runScan x d.toNat a.toNat op acc
  | .recur d a b => runRecur x d.toNat a.toNat b.toNat acc
  | .dup d => runLanes x d.toNat none none false (some (x.sa.toNat % 2 ^ x.lane.w)) (fun _ a _ _ => (a, noFlags)) acc
  | .extract _ a => runExtract x a.toNat acc
  | .insert d => runInsert x d.toNat acc
  | .copy d a => runLanes x d.toNat (some a.toNat) none false none (fun _ a _ _ => (a, noFlags)) acc
  | .merge d a b => runMerge x d.toNat a.toNat b.toNat acc
  | .toBrim d a => runToBrim x d.toNat a.toNat acc
  | .toCrown d a => runToCrown x d.toNat a.toNat acc
  | .load d ag shape => runLoad x d.toNat ag shape acc
  | .store v ag shape => runStore x v.toNat ag shape acc
  | .windowAdd a b =>
    match acc.s.hart.window with
    | some w => runWindowAdd x a.toNat b.toNat w acc
    | none => acc
  | .windowMerge =>
    match acc.s.hart.window with
    | some w => runWindowMerge x w acc
    | none => acc
  | .windowOpen _ => acc
  | .windowDrop => acc

/-- A group attempted: what it would leave, the faults met, and what its members carry on. -/
structure Attempt where
  s : State
  flags : Flags
  faults : List VFault
  pending : Bool
  carry : Carry
  members : List Member

/-- The key under which a member keeps what it carries: a node per group for a reduction. -/
def VKind.carryKey (k : VKind) (idx g : Nat) : Nat :=
  match k with
  | .reduce _ _ _ => idx * 64 + g
  | _ => runKey idx

/-- The members from number `idx` on performed on a group, in program order (R76). -/
def Convoy.runFrom (c : Convoy) (base limit : Nat) : Nat → List Member → Attempt → Attempt
  | _, [], t => t
  | idx, m :: ms, t =>
    let x := c.ctx t.s.hart base limit idx m
    let a := runMember x m ⟨t.s, noFlags, none, false, false, Carry.get c.partials (runKey idx),
      (Carry.get c.partials (taintKey idx)).isSome, []⟩
    let kept := match a.reg with
      | some v => t.carry.put (m.info.kind.carryKey idx c.next) v
      | none => t.carry
    let carry := if a.taint then kept.put (taintKey idx) 1 else kept
    c.runFrom base limit (idx + 1) ms
      { s := a.s, flags := t.flags ||| a.flags, faults := t.faults ++ a.fault.toList, pending := t.pending || a.pending,
        carry := carry, members := t.members ++ [{ m with begun := m.begun || a.seen }] }

/-- The next group attempted with elements at positions below `limit`, under the mode of issue. -/
def Convoy.attempt (c : Convoy) (s : State) (limit : Nat) : Attempt :=
  let t := c.runFrom s.nextRemote limit 0 c.members ⟨s.onHart fun h => { h with mode := c.mode }, noFlags, [], false, c.partials, []⟩
  { t with s := t.s.onHart fun h => { h with mode := s.hart.mode } }

/-- The smallest position among faults. -/
def minPos (l : List VFault) : Option Nat :=
  l.foldl (fun m f => some (match m with
    | none => f.pos
    | some p => min p f.pos)) none

/-- The next group settled: attempted with ever lower limits until no fault lies below the limit. The second part holds
the faults at the limit, in program order. A later member whose source at a position an earlier load was to write, and
whose load faults there, is run on the old contents for the question whether it would fault there itself; the spec is
silent on it (assumption log 90). -/
def Convoy.settle (c : Convoy) (s : State) : Nat → Nat → List VFault → Attempt × List VFault
  | 0, limit, fs => (c.attempt s limit, fs)
  | k + 1, limit, fs =>
    let t := c.attempt s limit
    match minPos t.faults with
    | none => (t, fs)
    | some p =>
      let here := t.faults.filter fun f => decide (f.pos = p)
      if p < limit then c.settle s k p here else (t, here)

/-- A fault of a memory element, not POISON. -/
def VFault.elemental (f : VFault) : Bool :=
  match f.stop with
  | .mem _ _ => true
  | .poison _ => false

/-- The faults at one position trim (R82 case 2): a load faults there, and none of those at its first active element. -/
def trims (fs : List VFault) : Bool :=
  (fs.any fun f => f.elemental && f.load) && !(fs.any fun f => f.elemental && f.load && f.first)

/-- The fault that decides a trap: an element fault before POISON, the lowest member first (R169). -/
def deciding (fs : List VFault) : Option VFault :=
  match fs.find? VFault.elemental with
  | some f => some f
  | none => fs.head?

/-! ## Progress (R80, R129, R139, R141) -/

/-- Groups of a member's destination whose bytes are final once groups 0 to next−1 have committed. -/
def finalGroups (k : VKind) (w n next : Nat) (count : Option Nat) (second : Bool) : Nat :=
  if n ≤ next then n
  else
    match k with
    | .cvt _ _ dst src => next * fmtWidth dst / max (fmtWidth src) (fmtWidth dst)
    | .compress _ _ => min n (count.getD 0 * w / 2048)
    | .sparse _ _ => if second then next / w else next / 2
    | _ => next

/-- The convoys of an agent of the hart. -/
def Hart.line (h : Hart) (brim : Bool) : List Convoy := if brim then h.brimConvoys else h.convoys

/-- The convoys of an agent of the hart replaced. -/
def Hart.setLine (h : Hart) (brim : Bool) (l : List Convoy) : Hart :=
  if brim then { h with brimConvoys := l } else { h with convoys := l }

/-- The registers that a younger convoy in flight of the same agent writes: their indices count its groups (R80). -/
def Convoy.overtaken (c : Convoy) (h : Hart) : List Nat :=
  ((h.line c.brim).filter fun k => decide (c.order < k.order)).flatMap Convoy.dest

/-- The final groups of each destination of each member of a convoy of which the groups below `next` have committed. -/
def Convoy.finals (c : Convoy) (h : Hart) (carry : Carry) : List (Nat × Nat) :=
  c.members.zipIdx.flatMap fun m =>
    let f := fun second => finalGroups m.1.info.kind h.elem.width h.count.groups c.next (carry.get (runKey m.2)) second
    match m.1.info.dest with
    | [d] => [(d, f false)]
    | [d, e] => [(d, f false), (e, f true)]
    | _ => []

/-- The progress of every destination of a convoy of which the groups below `next` have committed: a group of a register is
final once it is final for every member that writes the register. A register that a younger convoy writes keeps its own
count. -/
def Convoy.advanceProgress (c : Convoy) (h : Hart) (carry : Carry) : Hart :=
  let fs := c.finals h carry
  ((fs.map Prod.fst).eraseDups.filter fun r => !(c.overtaken h).contains r).foldl (fun h r =>
    h.setProgress [r] ((fs.filter fun f => decide (f.1 = r)).foldl (fun n f => min n f.2) h.count.groups)) h

/-! ## Retirement -/

/-- The convoy of a line that has its order number replaced by how it now stands. -/
def Convoy.replaceIn (c : Convoy) : List Convoy → List Convoy
  | [] => []
  | k :: ks => if k.order = c.order then c :: ks else k :: c.replaceIn ks

/-- A convoy of a line replaced by how it now stands. -/
def Hart.putConvoy (h : Hart) (c : Convoy) : Hart := h.setLine c.brim (c.replaceIn (h.line c.brim))

/-- The result that member `idx` delivers to an x register when the convoy retires (R78, R142, R145). A `vext` whose read
was never performed, since the convoy trimmed at or below its element, writes nothing: the spec gives its register no
value there (assumption log 90). -/
def Convoy.result (c : Convoy) (h : Hart) (idx : Nat) (k : VKind) : Option (BitVec 5 × Word × Flags) :=
  match k with
  | .reduce x _ t =>
    let l := h.lane c.rm
    let n := h.count.groups
    let r := treeFold (t.node l) n.log2 (tabulate n fun g => Carry.get c.partials (idx * 64 + g))
    some (x, BitVec.ofNat 64 (r.1.getD (t.identity l)), r.2)
  | .extract x _ =>
    match Carry.get c.partials (runKey idx) with
    | some v => some (x, BitVec.ofNat 64 v, noFlags)
    | none =>
      match c.members[idx]? with
      | some m => if m.sb.toNat < h.vmax then none else some (x, 0, noFlags)
      | none => none
  | _ => none

/-- Flags raised by an agent of the hart (R26). -/
def Hart.raiseIn (h : Hart) (brim : Bool) (f : Flags) : Hart :=
  if brim then { h with brimFlags := h.brimFlags ||| f } else { h with csr := h.csr.raise f }

/-- The scalar results of a convoy written. -/
def Convoy.deliver (c : Convoy) (h : Hart) : Hart :=
  (List.range c.members.length).foldl (fun h idx =>
    match c.members[idx]? with
    | none => h
    | some m =>
      match c.result h idx m.info.kind with
      | none => h
      | some (x, v, f) => (h.set x v).raiseIn c.brim f) h

/-- The collected flags of the brim agent ORed into FPCTL and cleared (R26). -/
def Hart.takeBrimFlags (h : Hart) : Hart := { h with csr := h.csr.raise h.brimFlags, brimFlags := 0 }

/-- The address after a convoy. -/
def Convoy.after (c : Convoy) : Word := c.addr + BitVec.ofNat 64 c.len

/-- A convoy is a `vmovbc`, a synchronisation with the brim agent (R146, R318). -/
def Convoy.isToCrown (c : Convoy) : Bool :=
  c.members.any fun m =>
    match m.info.kind with
    | .toCrown _ _ => true
    | _ => false

/-- A convoy is a `vwmerge` (R207). -/
def Convoy.closesWindow (c : Convoy) : Bool :=
  c.members.any fun m =>
    match m.info.kind with
    | .windowMerge => true
    | _ => false

/-- A synchronising convoy lets the hart go on: after the convoy, or back in its loop (R104). -/
def Convoy.goOn (c : Convoy) (h : Hart) : Hart :=
  if c.sync then
    let r := h.csr.fallThrough c.addr c.after
    { h with pc := r.1, csr := r.2, wait := none }
  else h

/-- Reads of other packages that a convoy of an owner no longer waits for: those without an answer are still answered or
fail, and nobody waits for them (R399); the others are dropped. Of a window entry also what failed is dropped, and at the
end of a group every answer (R207). -/
def State.forget (s : State) (o : Owner) (done : Bool) : State :=
  { s with remote := s.remote.filterMap fun r =>
      if decide (r.owner = o) && (decide (r.kind = .read 32) ||
          decide (64 ≤ r.part) && (r.kind.isRead || decide (r.status = .failed) || done && decide (r.status ≠ .sent))) then
        if r.status = .sent then some { r with owner := .gone } else none
      else some r }

/-- The reads of an element group that has committed dropped, and its writes to other packages joined (R397). -/
def State.sealGroup (s : State) (o : Owner) (base : Nat) : State := (s.forget o true).joinGroup o base

/-- The convoy at the head of its line retires, FFX as given (R80, R82, R209, R317). A synchronisation with the brim agent
takes the flags that it has collected (R26). -/
def Hart.retireConvoy (h : Hart) (c : Convoy) (ffx : Nat) : Hart :=
  let h1 := c.deliver h
  let h2 := h1.setProgress (c.dest.filter fun r => !(c.overtaken h1).contains r) h1.count.groups
  let h3 := if c.hasLoad && decide (h2.ffxOrder ≤ c.order) then
      { h2 with csr := { h2.csr with ffx := BitVec.ofNat 64 ffx }, ffxOrder := c.order }
    else h2
  let h4 := { h3 with csr := { h3.csr with cvret := h3.csr.cvret + 1 } }
  let h5 := h4.setLine c.brim (h4.line c.brim).tail
  let h6 := if c.brim then { h5 with csr := { h5.csr with bseq := zext (c.seq ++ low32 h5.csr.bseq) } } else h5
  let h7 := if c.closesWindow then { h6 with window := none } else h6
  c.goOn (if c.brim && c.sync || c.isToCrown then h7.takeBrimFlags else h7)

/-- The agent of a convoy, as the owner of its requests. -/
def State.convoyOwner (s : State) (c : Convoy) : Owner := s.ownerOf (if c.brim then .vertical else .vector)

/-- The current hart's convoy retires. -/
def State.retireConvoy (s : State) (c : Convoy) (ffx : Nat) : State :=
  (s.onHart fun h => h.retireConvoy c ffx).forget (s.convoyOwner c) true

/-! ## Traps and violations -/

/-- The progress indices of registers whose last write is taken back: those of the queued `mtv` that writes one still, else
all groups (R80, R229). -/
def Hart.restoreProgress (h : Hart) (rs : List Nat) : Hart :=
  rs.foldl (fun h r =>
    h.setProgress [r] (match h.queue.reverse.find? fun e => decide (e.op = .mtv ∧ e.va.toNat = r) with
      | some e => e.written
      | none => h.count.groups)) h

/-- What a trap of a convoy drops: the matrix entries posted after it, and the younger convoys of its line; those of the
brim go on beside a crown convoy that traps (R172), and those of the crown, none of which has begun, are dropped where a
`vmovcb` traps (R83, R220). -/
def Hart.discard (h : Hart) (c : Convoy) : Hart :=
  let old (k : Convoy) : Bool := decide (k.order < c.order)
  let crown (k : Convoy) : Bool := c.brim && old k
  let brim (k : Convoy) : Bool := !c.brim || old k
  let gone := h.convoys.filter (fun k => !crown k) ++ h.brimConvoys.filter fun k => !brim k
  let dropped := (gone.flatMap Convoy.dest).filter fun r => !c.dest.contains r
  let h1 := { h with
    convoys := h.convoys.filter crown, brimConvoys := h.brimConvoys.filter brim
    queue := h.queue.filter fun e => decide (e.order ≤ c.order) }
  c.advanceProgress (h1.restoreProgress dropped) c.partials

/-- A convoy traps (R83). -/
def State.convoyTrap (s : State) (c : Convoy) (cause : Cause) (val : Word) (grp : Nat) (fei : BitVec 32) : State :=
  (s.onHart fun h => (h.discard c).enter ⟨cause, c.addr, val, BitVec.ofNat 6 grp, fei⟩).forget (s.convoyOwner c) false

/-- PV set with its cause, and the window of the convoy recorded (R329, R332). -/
def Hart.violate (h : Hart) (c : Convoy) (cause : Cause) : Hart :=
  { h with csr := { h.csr with
      bwin := bwinWidened h.csr c.seq c.seq
      bsum := setField (setField h.csr.bsum 24 (BitVec.ofNat 6 cause.code)) 23 (1 : BitVec 1) } }

/-- BSUM with `k` more convoys discarded (R332). -/
def discAdd (bsum : Word) (k : Nat) : Word := setField bsum 48 (satAdd (field bsum 48 16) k)

/-- A brim protection violation (R329): a convoy that synchronises raises BRIM at its group (R143); any other is dropped
with every younger one. An older one that only waits for its accesses stays. -/
def State.brimViolation (s : State) (c : Convoy) (cause : Cause) : State :=
  let s1 := s.onHart fun h => h.violate c cause
  if c.sync then s1.convoyTrap c .brim s1.hart.csr.bsum c.next noElement
  else
    (s1.onHart fun h =>
      let young := h.brimConvoys.filter fun k => decide (c.order < k.order)
      let h1 := h.setProgress (c.dest ++ young.flatMap Convoy.dest) h.count.groups
      { h1 with
        brimConvoys := h.brimConvoys.filter fun k => decide (k.order < c.order)
        csr := { h1.csr with bsum := discAdd h1.csr.bsum young.length } }).forget (.brim s.hart.id) false

/-- The cause of an element fault (R150, R171). -/
def Stop.cause : Stop → Cause
  | .bound _ => .bound
  | _ => .access

/-- What TVAL holds for an element fault (R150). -/
def Stop.tval (e : Stop) (va : Word) : Word :=
  match e with
  | .bound i => i
  | _ => va

/-- The fault record of a convoy that stalls (R270). -/
def State.convoyFault (s : State) (c : Convoy) (va : Word) (access level elem : Nat) : FaultInfo :=
  ⟨va, c.addr, s.hart.id.setWidth 16, if c.brim then 2 else 1, access, BitVec.ofNat 32 elem, c.next, level,
    if c.brim then (homeOf s.hart.id).toNat else 0xFF, s.hart.csr.farmid, s.hart.csr.ptbase⟩

/-- What became of a convoy when it was given a turn. -/
inductive Went where
  | nothing
  | committed
  | retired
  | trapped
  deriving DecidableEq, Repr

/-- What stays of a group that is rolled back: the errors that its reads recorded and reported (R211, R330), and the
requests that they made (R336). `t` is the state of the attempt. -/
def State.keepRecords (s t : State) : State :=
  { s with
    hart := { s.hart with csr := { s.hart.csr with bsum := t.hart.csr.bsum, bwin := t.hart.csr.bwin } }
    plat := t.plat
    cores := s.cores.zipWith (fun a b => { a with cerr := b.cerr }) t.cores
    stack := s.stack.zipWith (fun a b => { a with access := b.access }) t.stack
    draws := t.draws }

/-- A convoy is the oldest of its line. -/
def Hart.isOldest (h : Hart) (c : Convoy) : Bool := (h.line c.brim).head?.any fun k => decide (k.order = c.order)

/-- A convoy takes the fault that decides (R82 case 3, R83, R211, R328, R329); a trap is taken only once the older convoys
have retired. `t` is the state of the attempt. -/
def State.takeFault (s0 t : State) (c : Convoy) (f : VFault) : State × Went :=
  let s := s0.keepRecords t
  let e := elemOfPos s.hart.elem.width f.pos
  if (c.sync || c.isToBrim) && !s0.hart.isOldest c then (s0, .nothing) else
  match f.stop with
  | .poison reg =>
    let s1 := if c.brim || decide (32 ≤ reg) then s else s.crownError s.hart.id reg
    (s1.convoyTrap c .poison (BitVec.ofNat 64 reg) c.next (BitVec.ofNat 32 e), .trapped)
  | .mem (.invalid lvl va) _ =>
    (s0.stall (s0.convoyOwner c) (s0.convoyFault c va f.access lvl e), .nothing)
  | .mem stop va =>
    let s1 := f.errors.foldl (fun s p => s.reportPiece p) (s.noteStop stop)
    if c.brim then
      let s2 := s1.brimViolation c stop.cause
      (s2, if c.sync then .trapped else .retired)
    else (s1.convoyTrap c stop.cause (stop.tval va) c.next (BitVec.ofNat 32 e), .trapped)

/-- The errors of the elements that fix a trim point, those in a page-table entry included, recorded and reported; of the
active elements above it, those that the device read (R211, R269). -/
def State.trimReports (s : State) (fs others : List VFault) : State :=
  let s1 := fs.foldl (fun s f =>
    f.errors.foldl (fun s p => s.reportPiece p) (match f.stop with
      | .mem e _ => s.noteStop e
      | .poison _ => s)) s
  others.foldl (fun s f =>
    if f.errors.isEmpty then s
    else
      let t := s.draw
      if Config.readAhead s.draws then f.errors.foldl (fun s p => s.reportPiece p) t else t) s1

/-! ## One group -/

/-- The group committed (R79): what the attempt left, the flags, the progress, the next group. -/
def Convoy.commit (c : Convoy) (t : Attempt) : State × Convoy :=
  let c1 := { c with next := c.next + 1, partials := t.carry, members := t.members }
  (t.s.onHart fun h => c1.advanceProgress ((h.raiseIn c.brim t.flags).putConvoy c1) t.carry, c1)

/-- New requests to other packages that an attempt made for data it waits for. -/
def State.keepRequests (s t : State) : State :=
  { s with
    remote := s.remote ++ t.remote.filter fun r => decide (s.nextRemote ≤ r.id) && !r.kind.isWrite
    nextRemote := t.nextRemote }

/-- `vwmerge` keeps which entries it has folded: all of a group it commits (R207). -/
def Convoy.noteMerged (c : Convoy) (s : State) : State :=
  if c.closesWindow then
    s.onHart fun h => { h with window := h.window.map fun w =>
      { w with merged := max w.merged (min w.entries (c.next * (2048 / h.elem.width))) } }
  else s

/-- The groups that a convoy executes: the G of R69, or those that hold a window's entries (R207). -/
def Convoy.groups (c : Convoy) (h : Hart) : Nat :=
  if c.closesWindow then
    match h.window with
    | some w => (w.entries * h.elem.width + 2047) / 2048
    | none => 0
  else h.count.groups

/-- A brim convoy has accesses of committed groups that are not performed: stores that wait, and writes to another package
without an answer (R317). -/
def State.accessesAway (s : State) (c : Convoy) : Bool :=
  c.brim && ((s.hart.laterals.any fun p => decide (p.order = c.order)) ||
    s.remote.any fun r => decide (r.owner = .brim s.hart.id) && decide (r.status = .sent) && r.kind.isWrite)


/-- A convoy that has performed its last group retires, with what it leaves in FFX. A brim convoy completes once its
accesses are performed, in sending order (R317); until then the convoy stands with nothing left to run. -/
def State.endConvoy (s : State) (c : Convoy) (hold : Bool) : State × Went :=
  if hold || s.accessesAway c || !s.hart.isOldest c then
    (s.onHart fun h => h.putConvoy { c with next := max c.next (c.groups h) }, .committed)
  else (s.retireConvoy c (c.trim.getD s.hart.vmax), .retired)

/-- A convoy of a line runs its next group. A brim convoy whose groups have all committed completes once its accesses are
performed. -/
def State.runGroup (s : State) (c : Convoy) : State × Went :=
  if c.groups s.hart ≤ c.next then
    if s.accessesAway c || !s.hart.isOldest c then (s, .nothing)
    else (s.retireConvoy c (c.trim.getD s.hart.vmax), .retired)
  else
    let r := c.settle s 600 (2 ^ 40) []
    let t := r.1
    if t.pending then (s.keepRequests t.s, .nothing)
    else
      match deciding r.2 with
      | none =>
        let d := c.commit t
        let s1 := (d.2.noteMerged d.1).sealGroup (s.convoyOwner c) s.nextRemote
        if c.groups s.hart ≤ d.2.next then s1.endConvoy d.2 (c.brim && s.lag) else (s1, .committed)
      | some f =>
        if trims r.2 then
          let all := (c.attempt s (2 ^ 40)).faults.filter fun g => decide (f.pos < g.pos)
          let d := c.commit { t with s := t.s.trimReports r.2 all }
          (d.1.sealGroup (s.convoyOwner c) s.nextRemote).endConvoy
            { d.2 with trim := some (elemOfPos s.hart.elem.width f.pos) } false
        else s.takeFault t.s c f

/-! ## Which work may go on -/

/-- A kind reads its sources group by group: nothing of a group above the one in hand. -/
def VKind.inStep : VKind → Bool
  | .slideDown _ _ => false
  | .perm _ _ _ => false
  | .expand _ _ => false
  | .extract _ _ => false
  | .load _ _ (.indexed _ _ _) => false
  | .store _ _ (.indexed _ _ _) => false
  | .windowAdd _ _ => false
  | _ => true

/-- A matrix entry posted before the convoy holds its next group: it reads a register that the convoy names, or is an
`mtv` that has not written the groups of such a register that the convoy reads or writes now (R219, R229). -/
def Hart.matrixHolds (h : Hart) (c : Convoy) : Bool :=
  h.queue.any fun e => decide (e.order ≤ c.order) && (e.regs.any fun r => c.named.contains r) &&
    (match e.op with
     | .mtv => !((c.members.all fun m => m.info.kind.inStep) && decide (c.next < e.written))
     | _ => true)

/-- The progress index of the destination of an `mtv` after its next row group; one that a convoy issued since, or a later
`mtv`, writes keeps its own count (R80, R229). -/
def MatrixEntry.advance (e : MatrixEntry) (rest : List MatrixEntry) (h : Hart) : Hart :=
  match e.op with
  | .mtv =>
    if (h.convoys.any fun c => c.dest.contains e.va.toNat) || rest.any fun k => decide (k.op = .mtv ∧ k.va = e.va) then h
    else h.setProgress [e.va.toNat] (e.written + 1)
  | _ => h

/-- The head entry of the matrix queue takes its step: an `mtv` writes its next row group and completes with the last
(R229), any other completes at once (R219, R231). -/
def State.completeEntry (s : State) (e : MatrixEntry) (rest : List MatrixEntry) : State :=
  let s1 := s.poisonFrom e.tile (e.errors s.hart)
  s1.onHart fun h =>
    { e.advance rest (e.run h) with queue := if e.rows.length ≤ 1 then rest else { e with rows := e.rows.tail } :: rest }

/-- A convoy holds a store (R160). -/
def Convoy.hasStore (c : Convoy) : Bool :=
  c.members.any fun m =>
    match m.info.kind with
    | .store _ _ _ => true
    | _ => false

/-- A vector store of an owner to another package has no answer yet. -/
def State.vectorAway (s : State) (o : Owner) : Bool :=
  s.remote.any fun r => decide (r.owner = o) && decide (r.part ≠ 0) && decide (r.status = .sent) && r.kind.isWrite

/-- A convoy that has begun holds a store, and the stores of its earlier groups to another package have no answer yet: every
access of a group goes before every store of a later one (R160). -/
def State.groupHeld (s : State) (c : Convoy) : Bool := decide (c.next ≠ 0) && c.hasStore && s.vectorAway (.hart s.hart.id)

/-- The crown convoy that may run its next group (R80, R81, R146, R160, R219). -/
def State.crownReady (s : State) : Option Convoy :=
  match s.hart.convoys with
  | c :: _ =>
    if s.stalled (.hart s.hart.id) || s.hart.halted || s.hart.matrixHolds c || s.groupHeld c ||
        (s.hart.brimConvoys.any fun b => decide (b.order < c.order) && b.isToBrim) then none
    else some c
  | [] => none

/-- The brim convoy whose turn it is: the oldest, or the one behind it while the oldest has only accesses left that are
not performed (R81, R317). -/
def State.brimNext (s : State) : Option Convoy :=
  match s.hart.brimConvoys with
  | c :: k :: _ =>
    if c.groups s.hart ≤ c.next ∧ s.accessesAway c = true ∧ k.next < k.groups s.hart then some k else some c
  | l => l.head?

/-- The brim convoy that may run its next group (R143, R146, R317). -/
def State.brimReady (s : State) : Option Convoy :=
  match s.brimNext with
  | some c =>
    if s.stalled (.brim s.hart.id) || s.hart.halted ||
        (c.isToBrim && (s.hart.matrixHolds c || s.hart.convoys.any fun k => decide (k.order < c.order))) ||
        (c.sync && !s.hart.convoys.isEmpty) then none
    else some c
  | none => none

/-- The current hart's convoys and matrix queue take one step; `nothing` when none can. -/
def State.advance (s : State) : State × Went :=
  match s.hart.entryReady with
  | some (e, rest) => (s.completeEntry e rest, .committed)
  | none =>
    let r := match s.crownReady with
      | some c => s.runGroup c
      | none => (s, .nothing)
    if r.2 = .nothing then
      match r.1.brimReady with
      | some c => r.1.runGroup c
      | none => r
    else r

/-- The current hart's convoys and matrix queue run until nothing can go on, or a trap is taken. -/
def State.drainFor : Nat → State → State × Bool
  | 0, s => (s, false)
  | k + 1, s =>
    let r := s.advance
    match r.2 with
    | .nothing => (r.1, false)
    | .trapped => (r.1, true)
    | _ => State.drainFor k r.1

/-- Steps that bound a drain: 10 convoys of 32 groups, a window of 2,048 groups, and the matrix queue. -/
def drainFuel : Nat := 5400

/-- The current hart's work runs out; the second part says that a trap was taken. -/
def State.drain (s : State) : State × Bool := State.drainFor drainFuel s

/-! ## Restart (R83, R147) -/

/-- The element width at which a kind reads its governing bits (R72, R128, R148, R206). -/
def VKind.maskWidth (k : VKind) (w : Nat) : Nat :=
  match k with
  | .cvt _ _ dst src => max (fmtWidth src) (fmtWidth dst)
  | .load _ _ shape => (memWidth w shape).2
  | .store _ _ shape => (memWidth w shape).2
  | .windowAdd _ _ => max w 32
  | _ => w

/-- The active elements, ascending, of the groups below the next one. -/
def GCtx.below (x : GCtx) (w : Nat) : List Nat :=
  (List.range (x.elems w / x.n * x.g)).filter fun i => x.active (govBit w i)

/-- What a member carries when its convoy issues from a group above 0, recomputed from the registers and masks as they
stand (R147). -/
def restartMember (x : GCtx) (m : Member) (s : State) (carry : Carry) : Carry :=
  let w := x.lane.w
  let act := x.below w
  let restartScan (d : BitVec 5) (last : Option Nat) : Carry :=
    match last with
    | some i =>
      let kept := carry.put (runKey x.idx) (s.hart.elemAt x.brim d.toNat w i)
      if s.hart.isPoisoned ⟨x.brim, d.toNat, w, i⟩ then kept.put (taintKey x.idx) 1 else kept
    | none => carry
  match m.info.kind with
  | .compress _ _ => carry.put (runKey x.idx) act.length
  | .expand _ _ => carry.put (runKey x.idx) act.length
  | .iota _ ms =>
    let mk := m.snap2.getD (s.hart.mask ms)
    carry.put (runKey x.idx) (act.filter fun i => mk.getLsbD (govBit w i)).length
  | .scan d _ _ => restartScan d act.getLast?
  | .recur d _ _ => restartScan d act.getLast?
  | .reduce _ a t =>
    (List.range x.g).foldl (fun carry g =>
      let y := { x with g := g, limit := 2 ^ 40 }
      match (runReduce y a.toNat t ⟨s.onHart fun h => { h with brimPoison := Vector.replicate 256 0, badBrim := [], badCrown := [] },
          noFlags, none, false, false, none, false, []⟩).reg with
      | some v => carry.put (x.idx * 64 + g) v
      | none => carry) carry
  | .extract _ a =>
    let j := x.sb.toNat
    if j < x.elems w ∧ j * x.n / x.elems w < x.g then
      carry.put (runKey x.idx) (s.hart.elemAt x.brim a.toNat w j)
    else carry
  | _ => carry

/-- A convoy set to begin at a group (R83, R115, R147, R176). -/
def Convoy.startAt (c : Convoy) (s : State) (g : Nat) : Convoy :=
  if g = 0 then c
  else
    let c1 := { c with next := g }
    let carry := (List.range c.members.length).foldl (fun carry idx =>
      match c.members[idx]? with
      | some m => restartMember (c1.ctx s.hart s.nextRemote (2 ^ 40) idx m) m s carry
      | none => carry) []
    let members := (List.range c.members.length).filterMap fun idx =>
      (c.members[idx]?).map fun m =>
        let x := c1.ctx s.hart s.nextRemote (2 ^ 40) idx m
        { m with begun := !(x.below (m.info.kind.maskWidth s.hart.elem.width)).isEmpty }
    { c1 with partials := carry, members := members }

end Sys2Proof.Machine
end

