-- ==== Sys2Proof/Machine/Complete.lean ====
section
/-! DEFINITION. Complete.lean: how an instruction of the scalar stream completes, transfers, traps or waits (R81, R92,
R104, R105, R169, R171), and the interlocks that it obeys. -/

namespace Sys2Proof.Machine

/-! ## Interlocks (R81) -/

/-- A convoy in flight that may still trap or write a scalar result: crown convoys, and a brim convoy that the hart
waits for. -/
def Hart.flying (h : Hart) : List Convoy := h.convoys ++ h.brimConvoys.filter fun c => c.sync

/-- A convoy in flight writes one of the x registers. -/
def Hart.busyX (h : Hart) (rs : List (BitVec 5)) : Bool :=
  h.flying.any fun c => c.writesX.any fun r => rs.contains r

/-- A crown convoy in flight reads or writes one of the masks; m0 is constant. -/
def Hart.busyMask (h : Hart) (rs : List (BitVec 5)) : Bool :=
  h.convoys.any fun c => c.masks.any fun r => decide (r ≠ 0) && rs.contains r

/-- No convoy of either kind is in flight. -/
def Hart.still (h : Hart) : Bool := h.convoys.isEmpty && h.brimConvoys.isEmpty

/-! ## Ends of an instruction -/

/-- A trap of an instruction of the scalar stream. It is taken once the crown convoys before it have retired: until then
the instruction has no effect, and it is executed again. `s` is the state before it, `t` the state with what its checks
leave. -/
def State.stopAt (s t : State) (i : TrapInfo) : State :=
  if s.hart.convoys.isEmpty then t.trap i else s.drain.1

/-- A trap with the instruction's own address (R92). -/
def State.refuse (s : State) (c : Cause) (val : Word) : State := s.stopAt s (s.scalarTrap c val)

/-- The address after an instruction of `len` bytes. -/
def State.nextPc (s : State) (len : Nat) : Word := s.hart.pc + BitVec.ofNat 64 len

/-- The end of an instruction that falls through to `next` (R104): its effect, which sees the loop counts already
counted, then the next address. -/
def State.fallTo (s : State) (next : Word) (eff : State → State) : State :=
  let r := s.hart.csr.fallThrough s.hart.pc next
  (eff { s with hart := { s.hart with csr := r.2, reissue := 0 } }).setPc r.1

/-- An instruction that cannot complete now: it traps, stalls, or is executed again. `s` is the state before it. -/
def State.halted (s t : State) (h : Halt) : State :=
  match h with
  | .trap c val => s.stopAt t (s.scalarTrap c val)
  | .stall f => t.stall (.hart s.hart.id) f
  | .wait => t

/-- What an instruction that goes on at `t` does, by what the look at the four bytes before `t` finds: `go`, CONVOY with no
effect, or the stall of the look (R75, R104). The errors that the look met are reported. -/
def State.going (s : State) (c : StartCheck) (t : Word) (go : State) : State :=
  match c with
  | .start => go
  | .no => s.refuse .convoy t
  | .held h => s.halted s h
  | .flawed ok fs => (if ok then go else s.refuse .convoy t).noteFlaws fs

/-- What an instruction of `len` bytes that does not transfer does, its back edge permitting (R104). -/
def State.goingOn (s : State) (len : Nat) (go : State) : State :=
  s.going (s.edge s.hart.pc (s.nextPc len)) (s.edgeTarget s.hart.pc (s.nextPc len)) go

/-- The back edge of an instruction of `len` bytes, if it takes one, goes to a convoy start that can be read. -/
def State.canGoOn (s : State) (len : Nat) : Bool :=
  match s.edge s.hart.pc (s.nextPc len) with
  | .start => true
  | .flawed ok _ => ok
  | _ => false

/-- An instruction of `len` bytes completes without a taken transfer. A back edge to what is no convoy start raises
CONVOY with no effect (R104). -/
def State.complete (s : State) (len : Nat) (eff : State → State) : State := s.goingOn len (s.fallTo (s.nextPc len) eff)

/-- A taken transfer (R75, R105). -/
def State.transfer (s : State) (t : Word) (eff : State → State) : State :=
  s.going (s.startCheck t) t
    ((eff { s with hart := { s.hart with csr := s.hart.csr.cancel s.hart.pc t, reissue := 0 } }).setPc t)

/-- An instruction that waits: it is named, and the hart goes no further until it ends. -/
def State.await (s : State) (i : Instr) : State := s.onHart fun h => { h with wait := some i }

/-- An instruction that may wait: it waits while it is not ready, and while waits are left open; else it is performed. -/
def State.start (s : State) (i : Instr) (xs : List (BitVec 5)) (ready : Bool) (now : State) : State :=
  if s.hart.busyX xs then s else if s.lag || !ready then s.await i else now

/-- An access that cannot be made now, by an instruction that can wait. -/
def State.haltedAs (s t : State) (i : Option Instr) (h : Halt) : State :=
  match h, i with
  | .wait, some i => t.await i
  | h, _ => s.halted t h

/-- An instruction that accesses memory: its checks alone, and its access. A bad back edge goes after the checks and
before the access (R104). -/
def State.accessing {α β : Type} (s : State) (i : Option Instr) (len : Nat) (check : Except Halt β × State)
    (access : Except Halt α × State) (eff : α → State → State) : State :=
  let go :=
    match access with
    | (.error h, t) => s.haltedAs t i h
    | (.ok v, t) => t.fallTo (s.nextPc len) (eff v)
  if s.edge s.hart.pc (s.nextPc len) = .start then go
  else
    match check with
    | (.error h, t) => s.haltedAs t i h
    | (.ok _, _) => s.goingOn len go

/-- The sign extension of the low `n` bits (R98, R107). -/
def sextFrom (n : Nat) (w : Word) : Word := (w.setWidth n).signExtend 64

/-! ## Releases and fences (R164 to R166, R398, R399) -/

/-- A crown store of the hart to another package has no answer yet. -/
def State.storesAway (s : State) : Bool :=
  s.remote.any fun r => decide (r.owner = .hart s.hart.id) && decide (r.status = .sent) && r.kind.isWrite

/-- Every crown-agent access before a release is performed at its home: the convoys have retired, and every store to
another package has its answer, which every scope waits for (R164, R366, R398; assumption log 92). -/
def State.released (s : State) (_sc : BitVec 4) : Bool := s.hart.convoys.isEmpty && !s.storesAway

/-- Brim accesses of committed groups are not performed: stores that wait, and writes to another package without an answer,
those of convoys that a violation or a trap has ended among them (R317, R329). -/
def State.brimAway (s : State) : Bool :=
  !s.hart.laterals.isEmpty ||
    s.remote.any fun r => decide (r.owner = .brim s.hart.id) && decide (r.status = .sent) && r.kind.isWrite

/-- A release or fence at a scope: ACCESS when a store to another package has failed (R399); else what follows, with the
posted stores performed. -/
def State.afterRelease (s : State) (sc : BitVec 4) (next : State → State) : State :=
  match (if 7 ≤ sc.toNat then s.hart.failedStore else none) with
  | some va => s.stopAt (s.onHart fun h => { h with failedStore := none }) (s.scalarTrap .access va)
  | none => next s.performStores

/-- An instruction that computes `v` for an x register from x registers. -/
def State.compute (s : State) (len : Nat) (d : BitVec 5) (srcs : List (BitVec 5)) (v : Word) : State :=
  if s.hart.busyX (d :: srcs) then s else s.complete len fun t => t.setX d v

end Sys2Proof.Machine
end

