-- ==== Sys2Proof/Machine/Issue.lean ====
section
/-! DEFINITION. Issue.lean: gathering, checking and issuing a convoy (R44, R75, R77, R119, R135, R137, R143, R146, R169,
R204, R316). -/

namespace Sys2Proof.Machine

/-! ## Gathering (R44, R75) -/

/-- How the gathering of a convoy ends. -/
inductive GatherEnd where
  | whole
  /-- A member in error, at its address. -/
  | bad (c : Cause) (addr : Word)
  | fetch (e : FetchStop)
  deriving DecidableEq, Repr

/-- The vector register fields of a matrix instruction (R43). -/
def matrixNamed (i : Instr) : List Nat :=
  match i with
  | .mma _ va vb _ _ _ _ _ => [va.toNat, vb.toNat]
  | .mmas _ va vb vx _ _ _ _ _ => [va.toNat, vb.toNat, vx.toNat]
  | .mmag _ va vb _ _ _ _ _ _ => [va.toNat, vb.toNat]
  | .mmax _ va vb vx _ _ _ _ _ => [va.toNat, vb.toNat, vx.toNat]
  | .mtv va _ _ => [va.toNat]
  | .mvt _ va _ => [va.toNat]
  | _ => []

/-- Every register of a list is declared. -/
def Count.declares (c : Count) (rs : List Nat) : Bool := rs.all fun r => decide (r < c.regs)

/-- The vector register fields of an engine instruction: the index registers of `copy.g` and `copy.s` and the key registers
of `stprobe` and `stfill` (R43, R59). -/
def engineNamed (v : BitVec 32) : List Nat :=
  if majorOf v = 0x37 then
    match (f4Of (lowOf v)).toNat with
    | 2 => [(bOf v).toNat]
    | 3 => [(bOf v).toNat]
    | 5 => [(dOf v).toNat]
    | 6 => [(dOf v).toNat]
    | _ => []
  else []

/-- The cause of an error in a word whose register fields are those: an undeclared register is no instruction, and
decoding goes before what the chain forbids (R43). -/
def Count.causeOf (c : Count) (rs : List Nat) : Cause := if c.declares rs then .convoy else .illegal

/-- The cause for `vmovcb` or `vmovbc` with C = 1 (R43, R49). -/
def Count.moveCause (c : Count) (v : BitVec 32) : Cause := c.causeOf [(aOf v).toNat, (dOf v).toNat]

/-- The member that bytes hold, or the cause for which the convoy traps there (R44, R49). -/
def memberOf (mode : Mode) (count : Count) (d : List Byte) : Except Cause Instr :=
  let w := leNat d
  match d.length with
  | 2 => .error (if parcelOk (BitVec.ofNat 16 w) then .convoy else .illegal)
  | 8 =>
    match decode64 (BitVec.ofNat 64 w) with
    | .ok i => .error (count.causeOf (matrixNamed i))
    | .error _ => .error .illegal
  | _ =>
    let v := BitVec.ofNat 32 w
    if isVectorMajor (majorOf v) then
      match decodeMember v with
      | .ok i => .ok i
      | .error .chainedMove => .error (count.moveCause v)
      | .error _ => .error .illegal
    else .error (if scalarOk mode v then count.causeOf (engineNamed v) else .illegal)

/-- The error of a decoded member: an undeclared register, a move or window instruction that is chained, or a placement
that differs from the first member's. -/
def memberError (count : Count) (first : Bool) (brim : Bool) (v : VInfo) : Option Cause :=
  if !count.declares v.kind.named then some .illegal
  else if !first && v.kind.alone then some .convoy
  else if v.brim != brim then some .convoy
  else none

/-- The first error of what is gathered: that of a member, else how the rest ends. -/
def GatherEnd.after (c : Option Cause) (addr : Word) (rest : GatherEnd) : GatherEnd :=
  match c with
  | some c => .bad c addr
  | none => rest

/-- The move that bytes spell with C = 1, as it is with C = 0. -/
def chainedMove (d : List Byte) : Option Instr :=
  let v := BitVec.ofNat 32 (leNat d)
  if d.length = 4 ∧ isVectorMajor (majorOf v) = true then
    match decodeMember v, decodeMember (v &&& ~~~1#32) with
    | .error .chainedMove, .ok i => some i
    | _, _ => none
  else none

/-- Members from an address on; `k` more may be chained. A member in error is gathered too, a chained move among them,
since what it writes counts for the members before it (R77). -/
def State.gatherFrom (s : State) (brim : Bool) : Nat → Word → List (Instr × Word) × GatherEnd × State
  | 0, addr => ([], .bad .convoy addr, s)
  | k + 1, addr =>
    match s.fetchInstr addr with
    | (.error e, s1) => ([], .fetch e, s1)
    | (.ok d, s1) =>
      match memberOf s1.hart.mode s1.hart.count d with
      | .error c =>
        match chainedMove d with
        | some i =>
          let r := s1.gatherFrom brim k (addr + 4)
          ((i, addr) :: r.1, .bad c addr, r.2.2)
        | none => ([], .bad c addr, s1)
      | .ok i =>
        match vinfo i with
        | none => ([], .bad .convoy addr, s1)
        | some v =>
          let wrong := memberError s1.hart.count false brim v
          if v.c then
            let r := s1.gatherFrom brim k (addr + 4)
            ((i, addr) :: r.1, GatherEnd.after wrong addr r.2.1, r.2.2)
          else ([(i, addr)], GatherEnd.after wrong addr .whole, s1)

/-- The members of the convoy whose first member is at pc, and how its gathering ends. -/
def State.gather (s : State) (i : Instr) (v : VInfo) : List (Instr × Word) × GatherEnd × State :=
  match memberError s.hart.count true v.brim v with
  | some c => ([], .bad c s.hart.pc, s)
  | none =>
    if v.c then
      let r := s.gatherFrom v.brim 3 (s.hart.pc + 4)
      ((i, s.hart.pc) :: r.1, r.2)
    else ([(i, s.hart.pc)], .whole, s)

/-- The source register of a member of the forward-reading class, 0 to 31 crown and 32 to 63 brim. -/
def VInfo.forward (v : VInfo) : Option Nat := v.kind.forward.map fun r => if v.brim then r + 32 else r

/-- A member of the forward-reading class in conflict: another member writes its source (R77). -/
def forwardConflict (ms : List (Instr × Word)) : Option Word :=
  let vs := ms.filterMap fun m => (vinfo m.1).map fun v => (m.2, v)
  (vs.find? fun m =>
    match m.2.forward with
    | some r => vs.any fun o => decide (o.1 ≠ m.1) && o.2.dest.contains r
    | none => false).map Prod.fst

/-- The lowest-addressed error of a convoy at `pc`, a forward-reading conflict among them (R44, R77). -/
def GatherEnd.orConflict (e : GatherEnd) (pc : Word) (conflict : Option Word) : GatherEnd :=
  match conflict, e with
  | none, e => e
  | some a, .bad c b => if (a - pc).toNat < (b - pc).toNat then .bad .convoy a else .bad c b
  | some a, _ => .bad .convoy a

/-! ## Checks at issue (R169) -/

/-- A member is no instruction under the configuration in force (R119, R137, R138, R204). That the register overlap of R138
is found here, after every member has been decoded, is the model's choice (assumption log 91). -/
def Hart.illegalAtIssue (h : Hart) (v : VInfo) : Bool :=
  !v.ok h.elem || v.kind.overlap ||
    (match v.kind with
     | .windowAdd _ _ => !(h.window.any fun w => decide (w.elem = h.elem))
     | .windowMerge => !(h.window.any fun w => decide (w.elem = h.elem))
     | _ => false)

/-- A mask is owned by engine work (R135, R347). -/
def Hart.owns (h : Hart) (m : BitVec 5) : Bool := (h.owner.getD m.toNat none).isSome

/-- A kind with P = 1 synchronises with the brim agent (R143, R146). -/
def VInfo.syncs (v : VInfo) : Bool :=
  match v.kind with
  | .reduce _ _ _ => v.brim
  | .extract _ _ => v.brim
  | .toCrown _ _ => true
  | _ => false

/-- A member is sent to the home stack (R316). -/
def VInfo.sent (v : VInfo) : Bool :=
  match v.kind with
  | .toBrim _ _ => true
  | _ => v.brim

/-- The first trap of a gathered convoy before the look at its back edge: cause and value (R169, steps 2 to 4). -/
def State.issueTrap (s : State) (ms : List (Instr × Word)) : Option (Cause × Word) :=
  let vs := ms.filterMap fun m => (vinfo m.1).map fun v => (m.2, v)
  match vs.find? fun m => s.hart.illegalAtIssue m.2 with
  | some m => some (.illegal, m.1)
  | none =>
    (vs.findSome? fun m => m.2.kind.writesMask.filter fun r => s.hart.owns r).map fun r => (.owned, r.setWidth 64)

/-- A gathered convoy synchronises with the brim agent, which holds error bits: BRIM (R143, R146; R169, step 5). -/
def Hart.syncTrap (h : Hart) (ms : List (Instr × Word)) : Option (Cause × Word) :=
  if (ms.any fun m => (vinfo m.1).any VInfo.syncs) && decide (errorBits h.csr.bsum ≠ 0) then some (.brim, h.csr.bsum)
  else none

/-- The interlocks of a convoy (R81, R143, R146, R185, R316). -/
def Hart.convoyBlocked (h : Hart) (ms : List (Instr × Word)) : Bool :=
  let vs := ms.filterMap fun m => vinfo m.1
  let sent := vs.any VInfo.sent
  let xs := ms.flatMap fun m => (scalarFields m.1).1.toList ++ (scalarFields m.1).2.toList
  h.busyX xs ||
    (if sent then decide (8 ≤ h.brimConvoys.length) else decide (2 ≤ h.convoys.length)) ||
    (sent && (vs.any fun v => h.convoys.any fun c =>
      c.writesMask.contains (v.g.setWidth 5) || v.kind.readsMask.any fun r => c.writesMask.contains r)) ||
    ((vs.any VInfo.syncs) && !h.still) ||
    ((vs.any fun v => v.kind.window) && !h.convoys.isEmpty)

/-! ## Issue -/

/-- A member with its scalar operands and snapshots captured (R78, R316). -/
def Hart.capture (h : Hart) (sent : Bool) (m : Instr × Word) : Member :=
  let f := scalarFields m.1
  let v := (vinfo m.1).getD vwdropInfo
  { instr := m.1
    addr := m.2
    sa := (f.1.map h.get).getD 0
    sb := (f.2.map h.get).getD 0
    snap := if sent then some (h.mask (v.g.setWidth 5)) else none
    snap2 := if sent then v.kind.readsMask.map h.mask else none
    begun := false }

/-- The bytes of the members: the moves of a loop are counted over them (R104). -/
def convoyLen (ms : List (Instr × Word)) : Nat := 4 * ms.length

/-- The governing mask of a chunk-acquire load (R152); with m0 it is a plain load. -/
def acquireMask (i : Instr) : Option (BitVec 5) :=
  match i with
  | .vldAcq _ _ g _ => if g = 0 then none else some (g.setWidth 5)
  | .vldsAcq _ _ _ g _ => if g = 0 then none else some (g.setWidth 5)
  | _ => none

/-- The convoy of gathered members. -/
def State.convoyOf (s : State) (ms : List (Instr × Word)) : Convoy :=
  let vs := ms.filterMap fun m => vinfo m.1
  let sent := vs.any VInfo.sent
  let h := s.hart
  let next := h.pc + BitVec.ofNat 64 (convoyLen ms)
  let ends := decide ((h.csr.fallThrough h.pc next).1 ≠ next) || decide ((h.csr.fallThrough h.pc next).2 ≠ h.csr)
  { addr := h.pc
    len := convoyLen ms
    members := ms.map (h.capture sent)
    brim := sent
    sync := vs.any VInfo.syncs || (!sent && ends)
    rm := h.csr.rm
    sat := h.csr.satBit
    mode := h.mode
    next := 0
    seq := h.csr.sent + 1
    partials := []
    order := h.issued
    loads := vs.any fun v => v.kind.isLoad
    acquires := ms.filterMap fun m => acquireMask m.1
    trim := none }

/-- A brim convoy sent while PV is set is discarded (R329). -/
def Hart.discardSent (h : Hart) : Hart :=
  { h with csr := { h.csr with bsum := discAdd h.csr.bsum 1 } }

/-- A convoy enters its line; the hart goes on at once unless it synchronises (R80, R115, R316). The indices of what it
writes begin at the groups that are final where it begins: none, unless it issues again from a later group (R129, R139). -/
def State.enterLine (s : State) (i : Instr) (c0 : Convoy) : State :=
  let c := c0.startAt s (min s.hart.reissue.toNat (c0.groups s.hart))
  let drop := c.brim && bit s.hart.csr.bsum 23
  s.onHart fun h =>
    let h1 := { h with issued := h.issued + 1, reissue := 0 }
    let h2 := if c.brim then { h1 with csr := { h1.csr with bseq := zext (field h1.csr.bseq 32 32 ++ c.seq) } } else h1
    let h3 := if drop then h2.discardSent
      else c.advanceProgress (h2.setLine c.brim (h2.line c.brim ++ [c])) c.partials
    if c.sync then { h3 with wait := some i }
    else
      let r := h3.csr.fallThrough c.addr c.after
      { h3 with pc := r.1, csr := r.2 }

/-- A convoy trap before any group (R171). -/
def State.convoyStop (s t : State) (c : Cause) (val : Word) : State := s.stopAt t ⟨c, s.hart.pc, val, 0, noElement⟩

/-- The work in flight runs on at once, unless waits are left open. -/
def State.settleWork (s : State) : State := if s.lag then s else s.drain.1

/-- What stops the gathering of a convoy. -/
def State.gatherStop (s t : State) (e : GatherEnd) : Option State :=
  match e with
  | .whole => none
  | .bad c a => some (s.convoyStop t c a)
  | .fetch (.access va) => some (s.convoyStop t .access va)
  | .fetch (.stall f) => some (t.stall (.hart s.hart.id) { f with addr := s.hart.pc })
  | .fetch .wait => some t

/-- A vector instruction at pc, the first member of its convoy, issues. -/
def State.issueConvoy (s : State) (i : Instr) (v : VInfo) : State :=
  let g := s.gather i v
  let t := g.2.2
  match s.gatherStop t (g.2.1.orConflict s.hart.pc (forwardConflict g.1)) with
  | some u => u
  | none =>
    if s.hart.convoyBlocked g.1 then s
    else
      match t.issueTrap g.1 with
      | some (c, val) => s.convoyStop t c val
      | none =>
        t.goingOn (convoyLen g.1)
          (match t.hart.syncTrap g.1 with
           | some (c, val) => s.convoyStop t c val
           | none => (t.enterLine i (t.convoyOf g.1)).settleWork)

end Sys2Proof.Machine
end

