-- ==== Sys2Proof/Machine/Waiting.lean ====
section
/-! DEFINITION. Waiting.lean: arrival words, waits, barrier slots and the farm-wide barrier (R193 to R201, R244 to R252,
R291). A sleeping hart stays at its wait; a wake executes the wait again. -/

namespace Sys2Proof.Machine

/-! ## Sleep (R199) -/

/-- The writes that a watched word has seen since it was first watched. -/
def State.writesTo (s : State) (loc : Nat) : Nat := ((s.watched.find? fun w => decide (w.1 = loc)).map Prod.snd).getD 0

/-- What a hart watches as it stands now (R199): any write to its word counts, and of a slot the generation and the
failure. -/
def State.look (s : State) (w : Watch) (loc : Nat) : Seen :=
  match w with
  | .gen _ _ => .writes (s.writesTo loc)
  | .ne _ _ => .writes (s.writesTo loc)
  | .slot k _ =>
    let x := (s.clusters[(clusterOf s.hart.id).toNat]'(clusterOf s.hart.id).isLt).slots[k.toNat % 8]'(by omega)
    .slot x.generation x.failed
  | .gbar => .quiet

/-- A word of memory watched: its writes are counted from now on. -/
def State.watching (s : State) (w : Watch) (loc : Nat) : State :=
  match w with
  | .slot _ _ => s
  | .gbar => s
  | _ => if s.watched.any fun p => decide (p.1 = loc) then s else { s with watched := s.watched ++ [(loc, 0)] }

/-- The current hart sleeps; a re-check that leads back to sleep goes on with the same sleep (R200). -/
def State.sleepOn (s : State) (w : Watch) (loc : Nat) : State :=
  let base := loc / 32 * 32
  let t := s.watching w base
  match t.hart.sleep with
  | some z => t.onHart fun h => { h with sleep := some { z with loc := base, seen := t.look w base } }
  | none => t.onHart fun h => { h with sleep := some ⟨w, false, false, base, t.look w base, false⟩ }

/-- The next check of a sleep is due. -/
def Hart.checkAgain (h : Hart) : Hart := { h with sleep := h.sleep.map fun z => { z with seen := .due } }

/-- A check that cannot be made now leaves the sleep as it is, with the next check due: it is made when the replay has
come. -/
def State.waitHalted (s t : State) (h : Halt) : State := s.halted (t.onHart Hart.checkAgain) h

/-- A wait completes; its core has power (R200). -/
def State.waitDone (s : State) : State :=
  match s.edge s.hart.pc (s.nextPc 4) with
  | .held h => s.waitHalted s h
  | _ => s.complete 4 fun t => t.onHart fun h => { h with sleep := none }

/-- `wait.gen` at an address (R195, R196). -/
def State.waitGenOn (s : State) (va : Word) (e : BitVec 32) : State :=
  match s.wordReach ⟨true, false, false⟩ va 16 16 with
  | (.error h, t) => s.waitHalted t h
  | (.ok l, t) => if (t.arrival l).generation ≠ e then t.waitDone else t.sleepOn (.gen va e) l

/-- `wait.ne` at an address (R195, R196). -/
def State.waitNeOn (s : State) (va v : Word) : State :=
  match s.wordReach ⟨true, false, false⟩ va 8 8 with
  | (.error h, t) => s.waitHalted t h
  | (.ok l, t) => if wordOf (t.readLoc l 8) ≠ v then t.waitDone else t.sleepOn (.ne va v) l

/-- `wait.gen` (R196). -/
def execWaitGen (a b : BitVec 5) (_sc : BitVec 4) (s : State) : Host.Outcome State Fault Refusal :=
  .next (if s.hart.busyX [a, b] then s else s.waitGenOn (s.x a) (low32 (s.x b)))

/-- `wait.ne` (R196). -/
def execWaitNe (a b : BitVec 5) (_sc : BitVec 4) (s : State) : Host.Outcome State Fault Refusal :=
  .next (if s.hart.busyX [a, b] then s else s.waitNeOn (s.x a) (s.x b))

/-! ## Arrival words (R196) -/

/-- An update of the arrival word at an address, with the checks of R195. -/
def State.updateWord (s t : State) (va : Word) (f : Arrival → Arrival) : State :=
  s.accessing none 4 (s.wordReach ⟨false, true, false⟩ va 16 16) (t.wordReach ⟨false, true, false⟩ va 16 16) fun l u =>
    u.onArrival l f

/-- `awarm` (R196). -/
def execAwarm (a b : BitVec 5) (s : State) : Host.Outcome State Fault Refusal :=
  .next (if s.hart.busyX [a, b] then s
    else s.updateWord s (s.x a) fun w => w.arm (low32 (s.x b)))

/-- `awadd` performed (R196). -/
def awaddNow (a b : BitVec 5) (sc : BitVec 4) (s : State) : State :=
  s.afterRelease sc fun t => t.updateWord t (s.x a) fun w => w.contribute (low32 (s.x b))

/-- `awadd` (R196). -/
def execAwadd (a b : BitVec 5) (sc : BitVec 4) (s : State) : Host.Outcome State Fault Refusal :=
  .next (s.start (.awadd a b sc) [a, b] (s.released sc) (awaddNow a b sc s))

/-! ## Barrier slots (R244 to R252) -/

/-- A cluster changed. -/
def State.onCluster (s : State) (c : BitVec 5) (f : Cluster → Cluster) : State :=
  { s with clusters := s.clusters.set c.toNat (f (s.clusters[c.toNat]'c.isLt)) c.isLt }

/-- The cluster of the current hart. -/
def State.cluster (s : State) : Cluster := s.clusters[(clusterOf s.hart.id).toNat]'(clusterOf s.hart.id).isLt

/-- A slot of a cluster changed. -/
def State.onSlot (s : State) (c : BitVec 5) (k : BitVec 3) (f : Slot → Slot) : State :=
  s.onCluster c fun cl => { cl with slots := cl.slots.set k.toNat (f (cl.slots[k.toNat]'k.isLt)) k.isLt }

/-- A slot of the current hart's cluster. -/
def State.slot (s : State) (k : BitVec 3) : Slot := s.cluster.slots[k.toNat]'k.isLt

/-- The farm of the current hart owns the slots of its cluster (R242, R246). -/
def State.ownsSlots (s : State) : Bool :=
  match s.farmOf s.hart with
  | some f => s.cluster.owner == some f.entry
  | none => false

/-- A parity error met in a slot of a cluster marks it failed and is reported (R252). -/
def State.meetSlotOf (s : State) (c : BitVec 5) (k : BitVec 3) : State :=
  if ((s.clusters[c.toNat]'c.isLt).slots[k.toNat]'k.isLt).bad then
    (s.onSlot c k fun x => { x with bad := false, failed := true }).report 0x0015 (c.setWidth 32) [zext k]
  else s

/-- A parity error met in a slot of the current hart's cluster. -/
def State.meetSlot (s : State) (k : BitVec 3) : State := s.meetSlotOf (clusterOf s.hart.id) k

/-- An arrival (R246). -/
def Slot.arrive (x : Slot) (n : BitVec 5) : Slot :=
  let y := if x.declared = 0 then { x with declared := n }
    else if x.declared ≠ n then { x with mismatch := true } else x
  let z := { y with arrived := y.arrived + 1 }
  if z.arrived = z.declared then { z with generation := z.generation + 1, arrived := 0, declared := 0 } else z

/-- The arrival counted at a slot; the first mismatch of a farm is reported (R246). -/
def State.arriveAt (s : State) (k : BitVec 3) (n : BitVec 5) : State :=
  let c := clusterOf s.hart.id
  let clash := decide ((s.slot k).declared ≠ 0) && decide ((s.slot k).declared ≠ n)
  let s1 := s.onSlot c k fun x => x.arrive n
  if clash && !s.cluster.mismatchSent then
    (s1.onCluster c fun cl => { cl with mismatchSent := true }).report 0x0015 (c.setWidth 32) [zext k]
  else s1

/-- `carrive` performed (R246). -/
def carriveNow (a b : BitVec 5) (s : State) : State :=
  let k := s.x a
  let n := s.x b
  if 7 < k.toNat then s.refuse .bound k
  else if n = 0 ∨ 16 < n.toNat then s.refuse .bound n
  else if !s.ownsSlots then s.refuse .access k
  else
    s.afterRelease 2 fun t =>
      let u := t.meetSlot (k.setWidth 3)
      if (u.slot (k.setWidth 3)).failed then t.stopAt u (t.scalarTrap .access k)
      else u.complete 4 fun w => w.arriveAt (k.setWidth 3) (n.setWidth 5)

/-- `carrive` (R246). -/
def execCarrive (a b : BitVec 5) (s : State) : Host.Outcome State Fault Refusal :=
  .next (s.start (.carrive a b) [a, b] (s.released 2) (carriveNow a b s))

/-- `cwait` on a slot (R247, R252). -/
def State.waitSlotOn (s : State) (k : Word) (e : BitVec 32) : State :=
  if 7 < k.toNat then s.refuse .bound k
  else if !s.ownsSlots then s.refuse .access k
  else
    let u := s.meetSlot (k.setWidth 3)
    if (u.slot (k.setWidth 3)).failed then s.stopAt u (s.scalarTrap .access k)
    else if (u.slot (k.setWidth 3)).generation ≠ e then u.waitDone
    else u.sleepOn (.slot k e) 0

/-- `cwait` (R247). -/
def execCwait (a b : BitVec 5) (s : State) : Host.Outcome State Fault Refusal :=
  .next (if s.hart.busyX [a, b] then s else s.waitSlotOn (s.x a) (low32 (s.x b)))

/-! ## The farm-wide barrier (R291) -/

/-- A farm of the table changed. -/
def State.onFarm (s : State) (f : BitVec 6) (g : Farm → Farm) : State :=
  { s with ctl := { s.ctl with farms := s.ctl.farms.map fun k => if k.entry = f then g k else k } }

/-- The farm of a table entry. -/
def State.farmAt (s : State) (f : BitVec 6) : Option Farm := s.ctl.farms.find? fun k => decide (k.entry = f)

/-- The running harts of a farm, ascending. -/
def State.hartsIn (s : State) (f : Farm) : List Hart := s.harts.filter fun h => decide (h.csr.farmid = f.farmid)

/-- Harts of the farm that have started and not retired. -/
def Farm.unretired (f : Farm) : Nat := f.started - f.retired

/-- The mode of a farm: 0 ORDERED, 1 AFFINE, 2 RESIDENT (R278). -/
def FarmRecord.kind (r : FarmRecord) : Nat := (field r.control 60 2).toNat

/-- A RESIDENT or cluster-placed farm, which starts, stops and resumes whole. -/
def FarmRecord.together (r : FarmRecord) : Bool := decide (r.kind = 2) || r.clustered

/-- A hart in `gbar` re-checks: it leaves once the barrier generation has reached its round. -/
def State.gbarWait (s : State) : State :=
  match s.farmOf s.hart with
  | some f => if s.hart.round ≤ f.barrier then s.waitDone else s.sleepOn .gbar 0
  | none => s

/-- The core of the current hart has power (R200). -/
def State.powerUp (s : State) : State := s.onCore (coreOf s.hart.id) fun k => { k with powerGated := false }

/-- The harts of a farm that sleep in `gbar` re-check, their cores with power again (R200). -/
def State.wakeGbar (s : State) (f : Farm) : State :=
  (s.hartsIn f).foldl (fun s h =>
    if h.sleep.any fun z => decide (z.watch = .gbar) then withHart h.id (fun t => t.powerUp.gbarWait) s else s) s

/-- The round of a farm is complete: the barrier generation advances and the harts that wait leave (R291). -/
def State.gbarRelease (s : State) (e : BitVec 6) : State :=
  match s.farmAt e with
  | some f =>
    if f.arrived ≠ 0 ∧ f.unretired ≤ f.arrived then
      let g := { f with barrier := f.barrier + 1, arrived := 0 }
      (s.onFarm e fun _ => g).wakeGbar g
    else s
  | none => s

/-- `gbar` (R291): the release waits for the convoys in flight and for stores to other packages; a hart that has not arrived in this round arrives. -/
def execGbar (s : State) : Host.Outcome State Fault Refusal :=
  .next (match s.farmOf s.hart with
    | none => s.refuse .access s.hart.csr.farmid
    | some f =>
      if !f.record.together then s.refuse .access s.hart.csr.farmid
      else if !s.released 3 then s
      else if !s.canGoOn 4 then s.gbarWait
      else
        let t := s.performStores
        let u :=
          if s.hart.round = f.barrier then
            (t.onHart fun h => { h with round := f.barrier + 1 }).onFarm f.entry fun k => { k with arrived := k.arrived + 1 }
          else t
        let w := u.gbarWait
        if w.lag then w else w.gbarRelease f.entry)

/-! ## Wakes and reports (R199, R201) -/

/-- The check that a sleep has due: its watched word has been written since the last one (R199), or its report raises
WAITREP now (R201). -/
def State.wakeDue (s : State) : Bool :=
  s.hart.sleep.any fun z => decide (z.seen ≠ s.look z.watch z.loc) || z.raising && s.hart.convoys.isEmpty

/-- A sleeping hart reads what it watches again (R199); its core has power again (R200). -/
def State.recheck (s : State) : State :=
  match s.hart.sleep with
  | some z =>
    let t := (s.onHart fun h => { h with sleep := some { z with clockGated := false } }).powerUp
    match z.watch with
    | .gen a e => t.waitGenOn a e
    | .ne a v => t.waitNeOn a v
    | .slot k e => t.waitSlotOn k e
    | .gbar => t.gbarWait
  | none => s

/-- The watched address of a report, and the kind of wait (R201, R395). -/
def Watch.reported : Watch → Word × Word
  | .gen a _ => (a, 0)
  | .ne a _ => (a, 1)
  | .slot k _ => (k, 2)
  | .gbar => (0, 3)

/-- WAITREP is enabled in the record of the hart's farm, and the wait is none of `gbar` (R201, R291). -/
def State.raisesWaitrep (s : State) (w : Watch) : Bool :=
  decide (w ≠ .gbar) &&
    (match s.farmOf s.hart with
     | some f => bit f.record.control 63
     | none => false)

/-- A woken hart takes WAITREP where its report raises it, once its convoys have retired (R169); else it re-checks. -/
def State.wokenUp (s : State) : State :=
  match s.hart.sleep with
  | some z =>
    if z.raising then
      if s.hart.convoys.isEmpty then s.powerUp.trap (s.scalarTrap .waitrep z.watch.reported.1) else s
    else s.recheck
  | none => s

/-- A residency report of the current hart (R201): once per sleep. It also wakes the hart; one whose convoy or check is
stalled is woken when the replay has come. -/
def State.residency (s : State) : State :=
  match s.hart.sleep with
  | some z =>
    if z.reported ∨ s.core.wreport = 0 then s
    else
      let r := z.watch.reported
      let t := (s.onCore (coreOf s.hart.id) fun k => { k with reports := satAdd k.reports 1 }).report 0x0013 s.me
        [s.hart.csr.farmid, s.hart.pc, r.1, r.2]
      let u := t.onHart fun h => { h with sleep := some { z with reported := true, raising := s.raisesWaitrep z.watch } }
      if s.stalled (.hart s.hart.id) then u.onHart Hart.checkAgain else u.wokenUp
  | none => s

end Sys2Proof.Machine
end

