-- ==== Sys2Proof/Machine/Engine.lean ====
section
/-! DEFINITION. Engine.lean: what all engine work shares (R339, R340, R344, R346, R348, R350): the checks at issue, the
accesses of an engine, contributions to arrival words, and aborts. -/

namespace Sys2Proof.Machine

/-! ## At issue (R339, R340, R344) -/

/-- The location of an address in the own core's window or a cluster aperture, for a hart of that place. -/
def windowLoc (h : HartId) (va : Word) : Option Nat :=
  if !inLocal va then none
  else
    let o := (low32 va).toNat
    match (field va 32 4).toNat with
    | 0 => if o < scratchBytes then some (scratchBase (coreOf h).toNat + o) else none
    | 1 =>
      if o / 0x400000 < 4 ∧ o % 0x400000 < scratchBytes then
        some (scratchBase ((clusterOf h).toNat * 4 + o / 0x400000) + o % 0x400000)
      else none
    | _ => none

/-- The address rule of R344: canonical, and not in a window that engines do not reach or beyond one. -/
def engineAddress (h : HartId) (va : Word) : Bool := canonical va && (!inLocal va || (windowLoc h va).isSome)

/-- What engine work captures of its hart (R339 step 4). -/
def Hart.issuer (h : Hart) : Issuer := ⟨h.id, h.serial, h.csr.farmid, h.csr.ptbase, h.mode, h.tag⟩

/-- The translation of an arrival word at issue (R340). Its updates are atomics (R193), as a fault record says (R270). -/
def State.awCheck (s : State) (aw : Word) : Except Halt Unit × State :=
  if aw = 0 ∨ (windowLoc s.hart.id aw).isSome = true then (.ok (), s)
  else if s.migrating aw then (.error .wait, s)
  else
    match s.translate (s.space .scalar) true ⟨true, true, false⟩ aw with
    | (.ok t, s1) => if field t.leaf 14 2 = 2 then (.error (.trap .access aw), s1) else (.ok (), s1)
    | (.error (.invalid lvl), s1) => (.error (.stall (s1.scalarFault aw 11 lvl)), s1)
    | (.error (.badEntry ea), s1) => (.error (.trap .access aw), s1.reportEntry ea (some s1.hart.id))
    | (.error _, s1) => (.error (.trap .access aw), s1)

/-- A parity error in the first `n` bytes of a crown register that a scalar-stream instruction reads (R211). -/
def State.registerPoison (s : State) (r : BitVec 5) (n : Nat) : Option (TrapInfo × State) :=
  let base := r.toNat * s.hart.count.groups * 256
  let bad := s.hart.badCrown.filter fun b => decide (base ≤ b) && decide (b < base + n)
  match bad with
  | [] => none
  | b :: bs =>
    let first := bs.foldl min b - base
    some (⟨.poison, s.hart.pc, zext r, 0, BitVec.ofNat 32 (first * 8 / s.hart.elem.width)⟩, s.crownError s.hart.id r.toNat)

/-- Crown accesses before engine work are performed: the convoys have committed, and every store to another package has
its answer (R339 step 1). -/
def State.engineReady (s : State) : Bool := s.hart.convoys.isEmpty && !s.storesAway

/-- A queued `mtv` has rows of the register still to write (R80, R229). -/
def Hart.rowsQueued (h : Hart) (r : BitVec 5) : Bool := h.queue.any fun e => decide (e.op = .mtv ∧ e.va = r)

/-- A brim convoy of the hart that has not retired reads or writes the mask; m0 is constant (R135, R317). -/
def Hart.brimMask (h : Hart) (m : BitVec 5) : Bool := decide (m ≠ 0) && h.brimConvoys.any fun c => c.masks.contains m

/-- The same before engine work that reads a register, whose rows are all written, and owns a mask, which no convoy still
reads or writes (R135, R229, R339 steps 1 and 2). -/
def State.engineReadyFor (s : State) (reads owns : Option (BitVec 5)) : Bool :=
  s.engineReady && !reads.any s.hart.rowsQueued && !owns.any s.hart.brimMask

/-- The kinds of queue of a stack (R339 step 5). -/
inductive Queue where
  | copies
  | walks
  | acts
  deriving DecidableEq, Repr

/-- The queue of a job, and its size. -/
def Job.queue : Job → Option Queue
  | .copy _ => some .copies
  | .walk _ => some .walks
  | .act _ => some .acts
  | .coll _ => none

/-- The size of a queue. -/
def Queue.size : Queue → Nat
  | .copies => 256
  | .walks => 64
  | .acts => 64

/-- The engines of a stack that take work from a queue, where the spec counts them (R12, R15). -/
def Queue.engines : Queue → Option Nat
  | .copies => some 16
  | .walks => some 1
  | .acts => none

/-- Work has begun, or an engine of its stack is free for it (R12). -/
def State.mayBegin (s : State) (w : Work) : Bool :=
  w.begun ||
    match w.job.queue.bind Queue.engines with
    | some n => decide ((s.works.filter fun v => decide (v.stack = w.stack) && v.begun && decide (v.job.queue = w.job.queue)).length < n)
    | none => true

/-- A queue of a stack has room. -/
def State.queueRoom (s : State) (st : BitVec 4) (q : Queue) : Bool :=
  decide ((s.works.filter fun w => decide (w.stack = st) && !w.begun && decide (w.job.queue = some q)).length < q.size)

/-- Work placed in the queue of a stack. -/
def State.enqueueWork (s : State) (st : BitVec 4) (j : Job) : State :=
  { s with works := s.works ++ [⟨s.nextWork, st, s.hart.issuer, false, none, j⟩], nextWork := s.nextWork + 1 }

/-- A mask cleared and owned by the work enqueued next. -/
def State.takeMask (s : State) (m : BitVec 5) : State :=
  s.onHart fun h => { h.setMask m 0 with owner := h.owner.setIfInBounds m.toNat (some s.nextWork) }

/-- A check of an engine instruction: cause and value when it fails. -/
abbrev Check := Bool × Cause × Word

/-- The first failing check. -/
def firstFailure (l : List Check) : Option (Cause × Word) := (l.find? fun c => c.1).map fun c => c.2

/-- An engine instruction whose waits have ended: its own checks, the arrival word, then the work placed and the
instruction complete; while the queue has no room it waits (R339). -/
def State.launchWork (s : State) (i : Instr) (checks : List Check) (aw : Word) (room : Bool) (eff : State → State) : State :=
  let s := s.performStores
  match firstFailure checks with
  | some (c, v) => s.refuse c v
  | none =>
    match s.awCheck aw with
    | (.error h, t) => s.haltedAs t (some i) h
    | (.ok _, t) => if room then t.complete 4 eff else t.await i

/-! ## Accesses of an engine -/

/-- What stops an engine access. -/
inductive EStop where
  | invalid (level : Nat) (va : Word)
  /-- Not replayable: cause 0x02 of R416. -/
  | fault
  /-- A remote page that the work cannot reach: cause 0x03. -/
  | remotePage
  /-- An owner tag that does not match: cause 0x01. -/
  | owner
  /-- A UALink request failed: cause 0x04. -/
  | link
  /-- The page is being migrated, or an answer has not come. -/
  | wait
  deriving DecidableEq, Repr

/-- The cause code of R416 of a finding that ends the work. -/
def EStop.cause : EStop → Word
  | .owner => 1
  | .remotePage => 3
  | .link => 4
  | _ => 2

/-- A scratchpad byte range carries a tag (R348). -/
def State.tagged (s : State) (tag : BitVec 48) (l n : Nat) : Bool :=
  let core := (l - scratchBase 0) / 0x400000
  let off := (l - scratchBase 0) % 0x400000
  decide (tag ≠ 0) &&
    ((s.cores.toList.getD core Core.reset).regions.any fun r =>
      r.tag == tag && decide (r.offset ≤ off) && decide (off + n ≤ r.offset + r.size))

/-- A location reached by engine work, owner tags checked. -/
def State.taggedLoc (s : State) (iss : Issuer) (l n : Nat) : Except EStop Nat :=
  if inDram l then .ok l else if s.tagged iss.tag l n then .ok l else .error .owner

/-- The stack of a location: that of its DRAM, or the home stack of the core of its scratchpad. -/
def stackOfLoc (l : Nat) : Nat := if inDram l then stackOf l else (l - scratchBase 0) / 0x400000 / 8

/-- A packet of engine work has a route between its stack and that of a location (R314, R400). -/
def State.engineRoute (s : State) (w : Work) (l : Nat) : Bool := torusReaches s.torusDown 4 w.stack.toNat (stackOfLoc l)

/-- Under what engine work translates: the page sorter of its stack, the captured PTBASE and mode. -/
def Work.space (w : Work) : Space := ⟨.stack w.stack, w.issuer.ptbase, w.issuer.mode⟩

/-- A place of engine work in this package. A packet that has no route there fails, with its EVENT (R399, R400). -/
def State.routedPiece (s : State) (w : Work) (p : Piece) (l : Nat) : Except EStop Piece × State :=
  if s.engineRoute w l then (.ok p, s)
  else (.error .link, s.report 0x0023 (w.stack.setWidth 32) [BitVec.ofNat 64 (s.homedPa l)])

/-- An engine agent's range within one block of 256 bytes: its place, its page, checked. -/
def State.enginePlace (s : State) (w : Work) (need : Need) (va : Word) (n : Nat) : Except EStop Piece × State :=
  if !canonical va then (.error .fault, s)
  else if inLocal va then
    match windowLoc w.issuer.hart va with
    | some l =>
      match s.taggedLoc w.issuer l n with
      | .ok l => s.routedPiece w ⟨va, n, .here l, none⟩ l
      | .error e => (.error e, s)
    | none => (.error .fault, s)
  else if s.migrating va then (.error .wait, s)
  else
    match s.translate w.space false need va with
    | (.error (.invalid lvl), s1) => (.error (.invalid lvl va), s1)
    | (.error (.badEntry ea), s1) => (.error .fault, s1.reportEntry ea none)
    | (.error _, s1) => (.error .fault, s1)
    | (.ok t, s1) =>
      let pa := t.pa va
      if field t.leaf 14 2 = 2 then (.ok ⟨va, n, .away pa, some t⟩, s1)
      else
        let p := pa % 2 ^ 42
        match dramLoc p with
        | some l => s1.routedPiece w ⟨va, n, .here l, some t⟩ l
        | none =>
          match apertureOf p with
          | some (c, b) =>
            match s1.taggedLoc w.issuer (scratchBase c + b) n with
            | .ok l => s1.routedPiece w ⟨va, n, .here l, some t⟩ l
            | .error e => (.error e, s1)
          | none => (.error .fault, s1)

/-- The parts of `n` bytes from an address on, each within one block of 256 bytes (R397); `k` bounds their number. -/
def blockSpans : Nat → Word → Nat → List (Word × Nat)
  | 0, _, _ => []
  | _, _, 0 => []
  | k + 1, va, n =>
    let m := min n (256 - va.toNat % 256)
    (va, m) :: blockSpans k (va + BitVec.ofNat 64 m) (n - m)

/-- The parts of `n` bytes. -/
def spansOf (va : Word) (n : Nat) : List (Word × Nat) := blockSpans (n / 256 + 2) va n

/-- Every part of a list reached. -/
def State.enginePlaces (w : Work) (need : Need) : List (Word × Nat) → State → Except EStop (List Piece) × State
  | [], s => (.ok [], s)
  | (va, n) :: rest, s =>
    match s.enginePlace w need va n with
    | (.error e, s1) => (.error e, s1)
    | (.ok p, s1) =>
      match State.enginePlaces w need rest s1 with
      | (.error e, s2) => (.error e, s2)
      | (.ok ps, s2) => (.ok (p :: ps), s2)

/-- A and D of an engine's piece. -/
def State.engineMark (s : State) (w : Work) (write : Bool) (p : Piece) : State :=
  match p.page with
  | some t => s.markUsed w.space write t
  | none => s

/-- The requests of a part of engine work. -/
def State.requestsOf (s : State) (o : Owner) : List RemoteRequest := s.remote.filter fun r => decide (r.owner = o)

/-- The remote reads of a part: those not asked for yet are sent; `wait` until all have come. -/
def State.askPieces (s : State) (o : Owner) (ps : List Piece) : Except EStop Unit × State :=
  ps.foldl (fun (r : Except EStop Unit × State) p =>
    match p.place with
    | .here _ => r
    | .away pa =>
      match r.2.remote.find? fun q => decide (q.owner = o) && decide (q.pa = pa) && decide (q.kind = .read p.len) with
      | none => (match r.1 with
          | .error .link => .error .link
          | _ => .error .wait, r.2.request o pa p.va (.read p.len))
      | some q =>
        match q.status with
        | .sent => (match r.1 with
            | .error .link => .error .link
            | _ => .error .wait, r.2)
        | .failed => (.error .link, r.2)
        | .answered _ => r) (.ok (), s)

/-- Bytes with a mark where they were read from bad data (R350). -/
abbrev Marked := List (Byte × Bool)

/-- The bytes of a piece that hold an error. -/
def State.badBytes (s : State) (l n : Nat) : List Bool :=
  if s.readFails l n then tabulate n fun i => s.readFails (l + i) 1 else List.replicate n false

/-- A piece read by an engine: errors are reported and carried with the bytes (R350). -/
def State.engineRead (s : State) (w : Work) (o : Owner) (p : Piece) : Marked × State :=
  match p.place with
  | .here l =>
    let s1 := ((s.engineMark w false p).countAccess false l p.len)
    let bad := s1.badBytes l p.len
    ((s1.readLoc l p.len).zip bad, if s1.readFails l p.len then s1.reportErrors none l p.len else s1)
  | .away pa =>
    match s.remote.find? fun q => decide (q.owner = o) && decide (q.pa = pa) && decide (q.kind = .read p.len) with
    | some q =>
      match q.status with
      | .answered d =>
        (d.map fun b => (b, false), { s with remote := s.remote.filter fun r => decide (r.id ≠ q.id) }.engineMark w false p)
      | _ => (List.replicate p.len (0, false), s)
    | none => (List.replicate p.len (0, false), s)

/-- Pieces read in order. -/
def State.engineReads (w : Work) (o : Owner) : List Piece → State → Marked × State
  | [], s => ([], s)
  | p :: ps, s =>
    let r := s.engineRead w o p
    let q := State.engineReads w o ps r.2
    (r.1 ++ q.1, q.2)

/-- A byte that an engine writes: in another package or here, its address, the virtual one, its value, and whether that
was read from bad data. -/
structure EngineByte where
  away : Bool
  addr : Nat
  va : Word
  value : Byte
  bad : Bool
  deriving DecidableEq, Repr

/-- The bytes of pieces, in order; `none` stands for a byte that is left alone. -/
def engineBytes : List Piece → List (Option (Byte × Bool)) → List EngineByte
  | [], _ => []
  | p :: ps, d =>
    ((d.take p.len).zipIdx.filterMap fun b =>
      b.1.map fun v => match p.place with
        | .here l => ⟨false, l + b.2, p.va + BitVec.ofNat 64 b.2, v.1, v.2⟩
        | .away pa => ⟨true, pa + b.2, p.va + BitVec.ofNat 64 b.2, v.1, v.2⟩) ++ engineBytes ps (d.drop p.len)

/-- What the bytes put into the `n` bytes from an aligned address on: of several for one byte, the last. -/
def blockOf (bs : List EngineByte) (away : Bool) (base n : Nat) : List (Option EngineByte) :=
  let mine := (bs.filter fun b => (b.away == away) && decide (b.addr / n = base / n)).reverse
  tabulate n fun k => mine.find? fun b => decide (b.addr = base + k)

/-- The aligned blocks of `n` bytes that bytes touch, each once. -/
def blocksOf (bs : List EngineByte) (away : Bool) (n : Nat) : List Nat :=
  ((bs.filter fun b => b.away == away).map fun b => b.addr / n * n).eraseDups

/-- The runs of bytes present in a block: offset and bytes. -/
def presentRuns (k : Nat) : List (Option EngineByte) → List (Nat × List EngineByte)
  | [] => []
  | none :: rest => presentRuns (k + 1) rest
  | some b :: rest =>
    match presentRuns (k + 1) rest with
    | (j, bs) :: more => if j = k + 1 then (k, b :: bs) :: more else (k, [b]) :: (j, bs) :: more
    | [] => [(k, [b])]

/-- An aligned 32-byte word written by an engine, at once where the bytes cover it (R346); words written from bad data
become poisoned (R350). -/
def State.engineWord (s : State) (base : Nat) (d : List (Option EngineByte)) : State :=
  (presentRuns 0 d).foldl (fun s r =>
    r.2.zipIdx.foldl (fun s b => if b.1.bad then s.poisonLoc (base + r.1 + b.2) 1 else s)
      (s.writeLoc (base + r.1) (r.2.map EngineByte.value))) s

/-- A block of 256 bytes of another package written: one request, and another for the 32-byte words that are written from
bad data, which it marks (R350, R397; assumption log 29). -/
def State.engineBlock (s : State) (o : Owner) (base : Nat) (d : List (Option EngineByte)) : State :=
  let badWord (k : Nat) : Bool := ((d.drop (k / 32 * 32)).take 32).any fun b => b.any EngineByte.bad
  let send (s : State) (bad : Bool) : State :=
    let mine := tabulate d.length fun k => if badWord k == bad then d.getD k none else none
    match mine.zipIdx.filterMap fun b => b.1.map fun v => (b.2, v) with
    | [] => s
    | (lo, v) :: rest =>
      let hi := ((rest.getLast?).map Prod.fst).getD lo
      s.request o (base + lo) v.va (.write (((mine.drop lo).take (hi + 1 - lo)).map fun b => b.map EngineByte.value) bad)
  send (send s false) true

/-- Bytes written by an engine to the places of pieces: of several for one place the last stands (R343). -/
def State.engineWriteBytes (w : Work) (o : Owner) (ps : List Piece) (d : List (Option (Byte × Bool))) (s : State) : State :=
  let s1 := ps.foldl (fun s p =>
    let t := s.engineMark w true p
    match p.place with
    | .here l => t.countAccess false l p.len
    | .away _ => t) s
  let bs := engineBytes ps d
  let s2 := (blocksOf bs false 32).foldl (fun s b => s.engineWord b (blockOf bs false b 32)) s1
  (blocksOf bs true 256).foldl (fun s b => s.engineBlock o b (blockOf bs true b 256)) s2

/-- Pieces written whole. -/
def State.engineWrites (w : Work) (o : Owner) (ps : List Piece) (d : Marked) (s : State) : State :=
  State.engineWriteBytes w o ps (d.map some) s

/-- The writes to other packages of a part: none was sent, all have their answers, one failed, or one is awaited. -/
inductive Sent where
  | none
  | done
  | failed
  | waiting
  deriving DecidableEq, Repr

/-- How the writes of a part to other packages stand. -/
def State.sentWrites (s : State) (o : Owner) : Sent :=
  let ws := (s.requestsOf o).filter fun r => r.kind.isWrite
  if ws.isEmpty then .none
  else if ws.any fun r => decide (r.status = .failed) then .failed
  else if ws.any fun r => decide (r.status = .sent) then .waiting
  else .done

/-- Requests whose work is gone: those without an answer stay, and are still answered or fail (R399). -/
def State.orphan (s : State) (mine : Owner → Bool) : State :=
  { s with remote := s.remote.filterMap fun r =>
      if !mine r.owner then some r else if r.status = .sent then some { r with owner := .gone } else none }

/-- The requests of a part given up. -/
def State.dropRequests (s : State) (o : Owner) : State := s.orphan fun p => decide (p = o)

/-! ## Arrival words of engine work (R340, R346, R348) -/

/-- The location of an arrival word of engine work, where a packet has a route to it (R400). A word without one counts as
inaccessible (R340; assumption log 120). -/
def State.routedWord (s : State) (w : Work) (l : Nat) : Except EStop Nat × State :=
  if s.engineRoute w l then (.ok l, s) else (.error .fault, s.report 0x0023 (w.stack.setWidth 32) [BitVec.ofNat 64 (s.homedPa l)])

/-- The location of an arrival word, translated afresh and marked used. Owner tags are not checked. -/
def State.awLoc (s : State) (w : Work) (aw : Word) : Except EStop Nat × State :=
  match windowLoc w.issuer.hart aw with
  | some l => s.routedWord w l
  | none =>
    if s.migrating aw then (.error .wait, s)
    else if !canonical aw || inLocal aw then (.error .fault, s)
    else
      match s.translate w.space false ⟨true, true, false⟩ aw with
      | (.error (.badEntry ea), s1) => (.error .fault, s1.reportEntry ea none)
      | (.error _, s1) => (.error .fault, s1)
      | (.ok t, s1) =>
        if field t.leaf 14 2 = 2 then (.error .fault, s1)
        else
          match dramLoc (t.pa aw % 2 ^ 42) with
          | some l => ((s1.markUsed w.space true t).countAccess false l 16).routedWord w l
          | none =>
            match apertureOf (t.pa aw % 2 ^ 42) with
            | some (c, b) => (s1.markUsed w.space true t).routedWord w (scratchBase c + b)
            | none => (.error .fault, s1)

/-- The abort update of an arrival word (R348). -/
def Arrival.abort (a : Arrival) : Arrival :=
  let n := min ((a.status.toNat / 256) % 256 + 1) 255
  let st := (a.status &&& 0xFFFF00FF) ||| BitVec.ofNat 32 (n * 256) ||| 2
  if a.target ≠ 0 then { a with status := st, generation := a.generation + 1, count := 0 } else { a with status := st }

/-- The arrival word of a job. -/
def Job.aw : Job → Word
  | .copy c => c.aw
  | .walk w => w.aw
  | .act a => a.aw
  | .coll c => c.aw

/-- Ownership by a piece of work ends, in every hart. -/
def State.releaseMask (s : State) (id : Nat) : State :=
  let f (h : Hart) : Hart :=
    { h with owner := h.owner.map fun o => if o = some id then none else o }
  { s with hart := f s.hart, parked := s.parked.map f }

/-- A piece of work is gone, with its stalls and requests. -/
def State.endWork (s : State) (id : Nat) : State :=
  let mine (o : Owner) : Bool :=
    match o with
    | .engine i _ => decide (i = id)
    | _ => false
  let s1 := { s with
    works := s.works.filter fun w => decide (w.id ≠ id)
    stalls := s.stalls.filter fun t => !mine t.owner
    badStaging := s.badStaging.filter fun b => decide (b.1 ≠ id) }
  (s1.orphan mine).releaseMask id

/-- The report of an abort (R348, R395). -/
def State.reportAbort (s : State) (w : Work) (cause : Word) : State :=
  s.report 0x0021 (w.stack.setWidth 32) [w.job.aw, cause]

/-- The page of an arrival word is being migrated: work that would update the word waits (R338). -/
def State.awHeld (s : State) (w : Work) : Bool :=
  w.ending.isSome || decide (w.job.aw ≠ 0) && (windowLoc w.issuer.hart w.job.aw).isNone && s.migrating w.job.aw

/-- Work changed. -/
def State.onWork (s : State) (id : Nat) (f : Work → Work) : State :=
  { s with works := s.works.map fun w => if w.id = id then f w else w }

/-- Work aborts (R348); a word that can no longer be reached receives no update, and cause 0x05 is reported (R340). While
the page of the word is being migrated nothing more of the work is done, and it ends with the migration (R338). -/
def State.abortWork (s : State) (w : Work) (cause : Word) : State :=
  let s1 := s.endWork w.id
  if w.job.aw = 0 then s1.reportAbort w cause
  else
    match s1.awLoc w w.job.aw with
    | (.ok l, s2) => (s2.onArrival l Arrival.abort).reportAbort w cause
    | (.error .wait, _) => s.onWork w.id fun v => { v with ending := some (v.ending.getD cause) }
    | (.error _, s2) => s2.reportAbort w 5

/-- A contribution of engine work to its arrival word, then what follows it; work whose word cannot be reached aborts
(R340, R346). -/
def State.contributeWork (s : State) (w : Work) (k : Nat) (next : State → State) : State :=
  if w.job.aw = 0 then next s
  else
    match s.awLoc w w.job.aw with
    | (.ok l, s1) => next (s1.onArrival l fun a => a.contribute (BitVec.ofNat 32 k))
    | (.error .wait, _) => s
    | (.error _, s1) => (s1.endWork w.id).reportAbort w 5

/-- The fault record of engine work (R270, R350). -/
def State.engineFault (_s : State) (w : Work) (va : Word) (access level elem : Nat) : FaultInfo :=
  ⟨va, 0, w.issuer.hart.setWidth 16, 4, access, BitVec.ofNat 32 elem, 0, level, w.stack.toNat, w.issuer.farmid,
    w.issuer.ptbase⟩

/-- A part of engine work that cannot go on: it stalls, waits, or the work aborts. -/
def State.engineStop (s : State) (w : Work) (part elem access : Nat) (e : EStop) : State :=
  match e with
  | .invalid lvl va => s.stall (.engine w.id part) (s.engineFault w va access lvl elem)
  | .wait => s
  | e => s.abortWork w e.cause

/-- The work of that number. -/
def State.workOf (s : State) (id : Nat) : Option Work := s.works.find? fun w => decide (w.id = id)

/-- The aborts that waited for a migration of the page of their arrival word (R338, R348). -/
def State.endWaiting (s : State) : State :=
  s.works.foldl (fun t w => match w.ending with
    | some cause => t.abortWork w cause
    | none => t) s

/-- Bits set in a mask that a piece of work owns (R347, R360). -/
def State.setOwnedBits (s : State) (id : Nat) (m : BitVec 5) (bits : Mask) : State :=
  let f (h : Hart) : Hart := if h.owner.getD m.toNat none = some id then h.setMask m (h.mask m ||| bits) else h
  { s with hart := f s.hart, parked := s.parked.map f }

/-- Work has begun (R349). -/
def State.beginWork (s : State) (id : Nat) : State := s.onWork id fun w => { w with begun := true }

end Sys2Proof.Machine
end

