-- ==== Sys2Proof/Machine/Embed.lean ====
section
/-! DEFINITION. Embed.lean: the embedding walkers (R351 to R355). -/

namespace Sys2Proof.Machine

/-! ## At issue (R351) -/

/-- The checks of `embw` (R351). -/
def State.walkChecks (s : State) (r c a : Word) : List Check :=
  let bad (va : Word) := !engineAddress s.hart.id va
  [(decide (r.toNat % 64 ≠ 0), .misalign, r), (decide (a.toNat % 16 ≠ 0), .misalign, a),
    (decide (65536 < c.toNat), .bound, c), (bad r, .access, r), (decide (a ≠ 0) && bad a, .access, a)]

/-- `embw` performed (R351). -/
def embwNow (d a b : BitVec 5) (s : State) : State :=
  let st := homeOf s.hart.id
  let n := (s.x a).toNat
  s.launchWork (.embw d a b) (s.walkChecks (s.x d) (s.x a) (s.x b)) (s.x b) (s.queueRoom st .walks) fun t =>
    t.enqueueWork st (.walk ⟨s.x d, n, s.x b, List.replicate (max 1 n) .todo⟩)

/-- `embw` (R351). -/
def execEmbw (d a b : BitVec 5) (s : State) : Host.Outcome State Fault Refusal :=
  .next (s.start (.embw d a b) [d, a, b] s.engineReady (embwNow d a b s))

/-! ## A lookup record (R352) -/

/-- A lookup record. -/
structure Lookup where
  table : Word
  rows : Nat
  elems : Nat
  fmt : Elem
  outFmt : Elem
  dflt : Nat
  count : Nat
  list : Word
  out : Word
  pooling : Nat
  deriving DecidableEq, Repr

/-- The floating format of a code between two bounds. -/
def floatCode (c hi : Nat) : Option Elem :=
  if c = 0 ∨ hi < c then none
  else
    match fmtOf (BitVec.ofNat 4 c) with
    | .flt f => some f
    | _ => none

/-- `n` little-endian bytes of a record. -/
def fieldAt (d : List Byte) (lo n : Nat) : Nat := leNat ((d.drop lo).take n)

/-- The record that 64 bytes hold; `none` when they break R352. -/
def Lookup.ofBytes (d : List Byte) : Option Lookup :=
  match floatCode (fieldAt d 14 1) 6, floatCode (fieldAt d 15 1) 5 with
  | some f, some g =>
    let r : Lookup := ⟨BitVec.ofNat 64 (fieldAt d 0 8), fieldAt d 8 4, fieldAt d 12 2, f, g, fieldAt d 16 4,
      fieldAt d 20 4, BitVec.ofNat 64 (fieldAt d 24 8), BitVec.ofNat 64 (fieldAt d 32 8), fieldAt d 40 1⟩
    if canonical r.table && canonical r.out && decide (r.rows ≠ 0) && decide (r.elems ≠ 0) &&
        (decide (f ≠ .e2m1) || decide (r.elems % 2 = 0)) && (decide (r.dflt < r.rows) || decide (r.dflt = 0xFFFFFFFF)) &&
        decide (r.list.toNat % 4 = 0) && decide (r.pooling ≤ 2) && decide (fieldAt d 41 3 = 0) &&
        decide (fieldAt d 48 16 = 0) then some r else none
  | _, _ => none

/-- Bytes of a table row. -/
def Lookup.rowBytes (r : Lookup) : Nat := r.elems * r.fmt.width / 8

/-- Bytes of the output row. -/
def Lookup.outBytes (r : Lookup) : Nat := r.elems * r.outFmt.width / 8

/-- The row that an index selects, and whether it is a default; `none` is the zero row (R353). -/
def Lookup.select (r : Lookup) (i : Int) : Option Nat × Bool :=
  if 0 ≤ i ∧ i < r.rows then (some i.toNat, false)
  else (if r.dflt = 0xFFFFFFFF then none else some r.dflt, true)

/-- The address of a row. -/
def Lookup.rowAddr (r : Lookup) (i : Nat) : Word := r.table + BitVec.ofNat 64 (i * r.rowBytes)

/-! ## Pooling (R354) -/

/-- A selected row as it was read: its bytes, and the stack of each byte. -/
structure PooledRow where
  bytes : Marked
  homes : List Nat
  deriving DecidableEq, Repr

/-- Element k of a row, widened to FP32, with its stack and whether it was read from bad data. -/
def PooledRow.elem (p : PooledRow) (f : Elem) (k : Nat) : Nat × Nat × Bool :=
  let lo := k * f.width / 8
  let n := max 1 (f.width / 8)
  let d := (p.bytes.drop lo).take n
  let v := leNat (d.map Prod.fst) / 2 ^ (k * f.width % 8) % 2 ^ f.width
  (widen32 f v, p.homes.getD lo 0, d.any Prod.snd)

/-- One operation of the pooling. -/
def poolOp (pooling a b : Nat) : Nat := if pooling = 2 then (fMinmax .fp32 true a b).1 else add32 a b

/-- A fold whose first value enters exactly. -/
def poolFold (pooling : Nat) : List Nat → Option Nat
  | [] => none
  | v :: vs => some (vs.foldl (poolOp pooling) v)

/-- Element k of the output, and whether bad data went into it. -/
def Lookup.pool (r : Lookup) (ps : List PooledRow) (k : Nat) : Nat × Bool :=
  let es := ps.map fun p => p.elem r.fmt k
  let parts := (List.range 16).filterMap fun st =>
    poolFold r.pooling ((es.filter fun e => decide (e.2.1 = st)).map fun e => e.1)
  let out := (poolFold r.pooling parts).getD 0
  let out := if r.pooling = 1 ∧ r.count ≠ 0 then
      (deliver .fp32 0 noFlags (divF .fp32 (decodeF .fp32 out) (.num false r.count 0)).1).1
    else out
  ((toFloat r.outFmt 0 true (decodeF .fp32 out)).1, es.any fun e => e.2.2)

/-- The output row. -/
def Lookup.row (r : Lookup) (ps : List PooledRow) (bad : Bool) : Marked :=
  (List.range r.elems).flatMap fun k =>
    let e := r.pool ps k
    (toBytes e.1 (r.outFmt.width / 8)).map fun b => (b, bad || e.2)

/-! ## A record performed (R355) -/

/-- Bytes that a walk reads: at once, or a finding. Remote pages are out of its reach. -/
def State.walkRead (s : State) (w : Work) (o : Owner) (va : Word) (n : Nat) : Except EStop (Marked × List Piece) × State :=
  match State.enginePlaces w ⟨true, false, false⟩ (spansOf va n) s with
  | (.error e, s1) => (.error e, s1)
  | (.ok ps, s1) =>
    if ps.any fun p => (match p.place with
        | .away _ => true
        | .here _ => false) then (.error .remotePage, s1)
    else
      let r := State.engineReads w o ps s1
      (.ok (r.1, ps), r.2)

/-- The stacks of the bytes of pieces. -/
def stacksOf (ps : List Piece) : List Nat :=
  ps.flatMap fun p =>
    match p.place with
    | .here l => List.replicate p.len (stackOfLoc l)
    | .away _ => List.replicate p.len 0

/-- The selected rows, in list order, from list position `j` on; a finding comes with its list position. -/
def State.walkRows (w : Work) (o : Owner) (r : Lookup) :
    Nat → List Int → State → Except (EStop × Nat) (List PooledRow) × State
  | _, [], s => (.ok [], s)
  | j, i :: rest, s =>
    let this := match (r.select i).1 with
      | none => (Except.ok (PooledRow.mk (List.replicate r.rowBytes (0, false)) (List.replicate r.rowBytes 0)), s)
      | some row =>
        match s.walkRead w o (r.rowAddr row) r.rowBytes with
        | (.error e, s1) => (.error (e, j), s1)
        | (.ok d, s1) => (.ok (PooledRow.mk d.1 (stacksOf d.2)), s1)
    match this with
    | (.error e, s1) => (.error e, s1)
    | (.ok p, s1) =>
      match State.walkRows w o r (j + 1) rest s1 with
      | (.error e, s2) => (.error e, s2)
      | (.ok ps, s2) => (.ok (p :: ps), s2)

/-- The index list. A page that is invalid is reported with the position of the first index that lies in it. -/
def State.walkList (s : State) (w : Work) (o : Owner) (r : Lookup) : Except (EStop × Nat) (List Int × Bool) × State :=
  match s.walkRead w o r.list (4 * r.count) with
  | (.error (.invalid lvl va), s1) => (.error (.invalid lvl va, (va - r.list).toNat / 4), s1)
  | (.error e, s1) => (.error (e, 0), s1)
  | (.ok d, s1) =>
    let bytes := d.1.map Prod.fst
    (.ok (tabulate r.count fun j => intOf 32 true (fieldAt bytes (4 * j) 4), d.1.any Prod.snd), s1)

/-- The list position that a fault at a record or an output reports, which the spec does not state: a free value. -/
def State.freePosition (s : State) : Nat := Config.choice s.draws

/-- A record is done: its output stands, and its bytes are contributed (R355). -/
def State.recordDone (s : State) (w : Work) (v : Walk) (rec : Nat) (bytes : Nat) : State :=
  s.contributeWork w bytes fun t =>
    let done := v.done.set rec .done
    let t1 := t.onWork w.id fun u => { u with job := .walk { v with done := done } }
    if done.all fun p => decide (p = .done) then t1.endWork w.id else t1

/-- A record processed (R352 to R355). -/
def State.runRecord (s : State) (w : Work) (v : Walk) (rec : Nat) : State :=
  let o := Owner.engine w.id rec
  let at_ := v.records + BitVec.ofNat 64 (64 * rec)
  let local_ (ps : List Piece) : Bool := ps.all fun p => (match p.place with
    | .here _ => true
    | .away _ => false)
  match s.walkRead w o at_ 64 with
  | (.error e, s1) => s1.draw.engineStop w rec s1.freePosition 1 e
  | (.ok d, s1) =>
    match Lookup.ofBytes (d.1.map Prod.fst) with
    | none => s1.abortWork w 6
    | some r =>
      match s1.walkList w o r with
      | (.error (e, j), s2) => s2.engineStop w rec j 1 e
      | (.ok (is, badList), s2) =>
        match State.walkRows w o r 0 is s2 with
        | (.error (e, j), s3) => s3.engineStop w rec j 1 e
        | (.ok rows, s3) =>
          match State.enginePlaces w ⟨false, true, false⟩ (spansOf (at_ + 44) 4) s3 with
          | (.error e, s4) => s4.draw.engineStop w rec s4.freePosition 2 e
          | (.ok back, s4) =>
            match State.enginePlaces w ⟨false, true, false⟩ (spansOf r.out r.outBytes) s4 with
            | (.error e, s5) => s5.draw.engineStop w rec s5.freePosition 2 e
            | (.ok out, s5) =>
              if !local_ back || !local_ out then s5.abortWork w 3
              else
                let n := (is.filter fun i => (r.select i).2).length
                let s6 := State.engineWrites w o back ((toBytes n 4).map fun b => (b, badList)) s5
                let s7 := State.engineWrites w o out (r.row rows (badList || d.1.any Prod.snd)) s6
                s7.recordDone w v rec r.outBytes

/-- The event EMBEDDING_RECORD_DONE (R355): a record of a walk is processed, waits, stalls, or aborts the walk. -/
def State.walkStep (s0 : State) (id rec : Nat) : State :=
  match s0.workOf id with
  | some w =>
    match w.job with
    | .walk v =>
      if v.done[rec]? ≠ some .todo ∨ s0.stalled (.engine id rec) = true ∨ s0.mayBegin w = false ∨ s0.awHeld w = true then s0
      else
        let s := s0.beginWork id
        if v.count = 0 then s.recordDone w v rec 0 else s.runRecord w v rec
    | _ => s0
  | none => s0

/-- The event EMBEDDING_RECORD_DONE (R355). -/
def execEmbeddingRecordDone (id rec : Nat) (s : State) : Host.Outcome State Fault Refusal := .next (s.walkStep id rec)

end Sys2Proof.Machine
end

