-- ==== Sys2Proof/Machine/ActCache.lean ====
section
/-! DEFINITION. ActCache.lean: the step-tagged activation cache: `stprobe`, `stfill`, `stctl`, and their decisions (R356
to R363). -/

namespace Sys2Proof.Machine

/-! ## At issue (R357, R358, R361) -/

/-- STSIZE.bytes. -/
def Csrs.tileBytes (c : Csrs) : Nat := (field c.stsize 0 17).toNat

/-- STSIZE.format. -/
def Csrs.tileFmt (c : Csrs) : BitVec 4 := field c.stsize 20 4

/-- STSIZE holds a permitted value (R357). -/
def Csrs.stsizeOk (c : Csrs) : Bool :=
  decide (1 ≤ c.tileFmt.toNat) && decide (c.tileFmt.toNat ≤ 5) && decide (c.tileBytes % 256 = 0) &&
    decide (256 ≤ c.tileBytes) && decide (c.tileBytes ≤ 65536)

/-- Key i of a register (R358). -/
def State.tileKey (s : State) (vk : BitVec 5) (i : Nat) : Word := BitVec.ofNat 64 (s.hart.elemAt false vk.toNat 64 i)

/-- The tiles of a probe or fill whose keys do not skip and that a mask selects. -/
def State.tilesOf (s : State) (vk : BitVec 5) (xi xo : Word) (mask : Mask) : List TileJob :=
  (List.range 64).filterMap fun i =>
    let k := s.tileKey vk i
    let at_ (b : Word) : Word := b + BitVec.ofNat 64 (i * s.hart.csr.tileBytes)
    if bit k 63 || !mask.getLsbD i then none else some ⟨i, k, at_ xi, at_ xo⟩

/-- The checks of a probe or fill (R358). -/
def State.actChecks (s : State) (vk : BitVec 5) (xi xo : Word) : List Check :=
  let c := s.hart.csr
  let bad (va : Word) := !engineAddress s.hart.id va
  ((List.range 64).map fun i =>
    let k := s.tileKey vk i
    (!bit k 63 && decide (field k 56 7 ≠ 0), .bound, BitVec.ofNat 64 i)) ++
  [(!c.stsizeOk, .bound, c.stsize), (decide (c.staw.toNat % 16 ≠ 0), .misalign, c.staw), (bad xi, .access, xi),
    (bad xo, .access, xo), (decide (c.staw ≠ 0) && bad c.staw, .access, c.staw)]

/-- The job of a probe or fill. -/
def Csrs.actJob (c : Csrs) (fill : Bool) (md : BitVec 5) (tiles : List TileJob) : ActJob :=
  ⟨fill, md, tiles, [], low32 c.ststep, low32 c.stthr, c.tileBytes, c.tileFmt, field c.stmaxrep 0 8, c.ststream, c.staw⟩

/-- The arena of a stack in bytes. -/
def State.arenaBytes (s : State) : Nat := s.pkg.stalimit.toNat * 65536

/-- `stprobe` performed (R358). -/
def stprobeNow (m : BitVec 4) (v a b : BitVec 5) (s : State) : State :=
  let md : BitVec 5 := m.setWidth 5
  let st := homeOf s.hart.id
  if m = 0 ∨ s.hart.count.declares [v.toNat] = false then s.refuse .illegal s.hart.pc
  else if s.hart.owns md then s.refuse .owned (zext md)
  else
    match s.registerPoison v 512 with
    | some (t, u) => s.stopAt u t
    | none =>
      let tiles := s.tilesOf v (s.x a) (s.x b) (BitVec.allOnes 8192)
      s.launchWork (.stprobe m v a b) (s.actChecks v (s.x a) (s.x b)) s.hart.csr.staw (s.queueRoom st .acts) fun t =>
        if tiles.isEmpty && decide (t.hart.csr.staw = 0) then t.onHart fun h => h.setMask md 0
        else (t.takeMask md).enqueueWork st (.act (t.hart.csr.actJob false md tiles))

/-- `stprobe` (R358). -/
def execStprobe (m : BitVec 4) (v a b : BitVec 5) (s : State) : Host.Outcome State Fault Refusal :=
  .next (s.start (.stprobe m v a b) [a, b] (s.engineReadyFor (some v) (some (m.setWidth 5))) (stprobeNow m v a b s))

/-- `stfill` performed (R361). -/
def stfillNow (v a b : BitVec 5) (g : BitVec 3) (s : State) : State :=
  let st := homeOf s.hart.id
  let c := s.hart.csr
  if s.hart.count.declares [v.toNat] = false then s.refuse .illegal s.hart.pc
  else
    match s.registerPoison v 512 with
    | some (t, u) => s.stopAt u t
    | none =>
      let arena : Check := (decide (s.arenaBytes = 0) || decide (s.arenaBytes < 2 * c.tileBytes), .access, 0)
      let tiles := s.tilesOf v (s.x a) (s.x b) (s.hart.mask (g.setWidth 5))
      s.launchWork (.stfill v a b g) (s.actChecks v (s.x a) (s.x b) ++ [arena]) c.staw (s.queueRoom st .acts) fun t =>
        t.enqueueWork st (.act (t.hart.csr.actJob true 0 tiles))

/-- `stfill` (R361). -/
def execStfill (v a b : BitVec 5) (g : BitVec 3) (s : State) : Host.Outcome State Fault Refusal :=
  .next (s.start (.stfill v a b g) [a, b] (s.engineReadyFor (some v) none) (stfillNow v a b g s))

/-! ## The directory (R356) -/

/-- The stream, block and tile of a key. -/
def DirEntry.names (e : DirEntry) (k : Word) (asid : BitVec 12) : Bool :=
  e.stream == field k 40 16 && e.block == field k 24 16 && e.tile == field k 0 24 && e.asid == asid

/-- The stack-local offset of an entry's slot in DRAM: the stored input, then the stored output. -/
def State.slotLoc (s : State) (st : BitVec 4) (e : DirEntry) : Nat := cellLoc st.toNat (s.pkg.stabase.toNat + e.slot)

/-- A span of bytes of the arena that no entry uses. -/
def slotFree (dir : List DirEntry) (arena slot n : Nat) : Bool :=
  decide (slot + n ≤ arena) && !(dir.any fun e => decide (e.slot < slot + n) && decide (slot < e.slot + 2 * e.size))

/-- A free slot of `n` bytes: which one is the device's choice among all that are free. -/
def freeSlot (dir : List DirEntry) (arena n choice : Nat) : Option Nat :=
  let c := 256 * (choice % (arena / 256 + 1))
  if slotFree dir arena c n then some c
  else ((0 :: dir.map fun e => (e.slot + 2 * e.size + 255) / 256 * 256).find? fun o => slotFree dir arena o n)

/-- The entry of least recent use dropped. -/
def evict (dir : List DirEntry) : List DirEntry :=
  let oldest := dir.foldl (fun (m : Option Nat) e => some (match m with
    | none => e.lastUse
    | some k => min k e.lastUse)) none
  dir.filter fun e => decide (some e.lastUse ≠ oldest)

/-- Evictions until there is a free entry and a free slot: the directory, the slot, and how many were evicted. -/
def makeRoom (arena n choice : Nat) : Nat → List DirEntry → Option (List DirEntry × Nat × Nat)
  | 0, _ => none
  | k + 1, dir =>
    match (if dir.length < 65536 then freeSlot dir arena n choice else none) with
    | some o => some (dir, o, 0)
    | none =>
      if dir.isEmpty then none
      else (makeRoom arena n choice k (evict dir)).map fun r => (r.1, r.2.1, r.2.2 + 1)

/-- A stack's counters (R364). -/
def Stack.bump (t : Stack) (k : Nat) (n : Nat) : Stack :=
  { t with counters := t.counters.setIfInBounds k (t.counters.toList.getD k 0 + BitVec.ofNat 64 n) }

/-! ## The distance metric (R359) -/

/-- The FP32 sum tree over 64 values. -/
def tree64 (l : List Nat) : Nat := ((treeFold (fun a b => (add32 a b, noFlags)) 6 (l.map some)).1).getD 0

/-- The absolute value of FP32 bits. -/
def abs32 (v : Nat) : Nat := v % 2 ^ 31

/-- Element i of a tile, widened to FP32. -/
def tileElem (f : Elem) (d : List Byte) (i : Nat) : Nat := widen32 f (fieldAt d (i * f.width / 8) (f.width / 8))

/-- Sums in order from the first. -/
def sum32 : List Nat → Nat
  | [] => 0
  | v :: vs => vs.foldl add32 v

/-- The metric passes (R359). -/
def metricPasses (f : Elem) (thr : BitVec 32) (x p : List Byte) : Bool :=
  let n := x.length * 8 / f.width
  let e (d : List Byte) (i : Nat) := tileElem f d i
  let d := sum32 (tabulate (n / 64) fun g =>
    tree64 (tabulate 64 fun j => abs32 (fSub .fp32 0 (e x (64 * g + j)) (e p (64 * g + j))).1))
  let z := sum32 (tabulate (n / 64) fun g => tree64 (tabulate 64 fun j => abs32 (e p (64 * g + j))))
  let t := (fMul .fp32 0 thr.toNat z).1
  let v (k : Nat) := decodeF .fp32 k
  if (v d).isNan || (v z).isNan || (v t).isNan then false
  else if eqF (v z) (v 0) then eqF (v d) (v 0)
  else ltF (v d) (v t) || eqF (v d) (v t)

/-! ## A decision (R360, R363) -/

/-- The hart that started the work, wherever it runs now. -/
def Hart.started (h : Hart) (i : Issuer) : Bool := decide (h.serial = i.serial)

/-- The hart counters of the issuing hart counted, under STSTREAM. -/
def State.countProbe (s : State) (w : Work) (a : ActJob) (key : Word) (f : Csrs → Csrs) : State :=
  if bit a.stream 16 && field a.stream 0 16 != field key 40 16 then s
  else
    let g (h : Hart) : Hart := if h.started w.issuer then { h with csr := f h.csr } else h
    { s with hart := g s.hart, parked := s.parked.map g }

/-- A tile is settled: it leaves the job, its bytes are contributed, and the job ends with its last tile (R360). -/
def State.settleTile (s : State) (w : Work) (a : ActJob) (i : Nat) : State :=
  let tiles := a.tiles.filter fun t => decide (t.index ≠ i)
  let settling := a.settling.filter fun t => decide (t.1.index ≠ i)
  s.contributeWork w a.bytes fun t =>
    let t1 := t.onWork w.id fun u => { u with job := .act { a with tiles := tiles, settling := settling } }
    if tiles.isEmpty && settling.isEmpty then t1.endWork w.id else t1

/-- The place of a tile's input: its pieces, and the stack that holds its first byte. A tile on a remote-placement page aborts
the work with cause 3, an outcome that the spec gives for walks alone (R355, R416; assumption log 111). -/
def State.tilePlace (s : State) (w : Work) (need : Need) (va : Word) (n : Nat) : Except EStop (List Piece × BitVec 4) × State :=
  match State.enginePlaces w need (spansOf va n) s with
  | (.error e, s1) => (.error e, s1)
  | (.ok ps, s1) =>
    if ps.any fun p => (match p.place with
        | .away _ => true
        | .here _ => false) then (.error .remotePage, s1)
    else (.ok (ps, BitVec.ofNat 4 ((stacksOf ps).headD 0)), s1)

/-- The outcome of a probe of a tile: absent, stale, forced, failing the metric, or a hit with its entry. -/
inductive Probe where
  | absent
  | stale
  | forced
  | far
  | hit (e : DirEntry)
  deriving DecidableEq, Repr

/-- The tile decided by the first row that applies (R360). -/
def State.probe (s : State) (w : Work) (a : ActJob) (t : TileJob) (st : BitVec 4) (x : List Byte) : Probe :=
  match (s.stackAt st).dir.find? fun e => e.names t.key (asidOf w.issuer.ptbase) && e.size == a.bytes && e.fmt == a.fmt with
  | none => .absent
  | some e =>
    if e.step ≠ a.step - 1 then .stale
    else if a.cap.toNat ≤ e.replays.toNat then .forced
    else
      match fmtOf a.fmt with
      | .flt f => if metricPasses f a.thr x (s.readLoc (s.slotLoc st e) a.bytes) then .hit e else .far
      | _ => .far

/-- A hit: the entry's step tag, replay count and use, and the stored output that will be replayed (R360). -/
def State.takeHit (s : State) (w : Work) (a : ActJob) (t : TileJob) (st : BitVec 4) (e : DirEntry) : State :=
  let at_ := s.slotLoc st e + a.bytes
  let out := s.readLoc at_ a.bytes
  let bad := s.readFails at_ a.bytes
  let s1 := ((if bad then s.reportErrors none at_ a.bytes else s).countAccess false (s.slotLoc st e) (2 * a.bytes)).onStack st fun k =>
    { k with
      useClock := k.useClock + 1
      dir := k.dir.map fun u =>
        if u = e then { u with step := a.step, replays := u.replays + 1, lastUse := k.useClock + 1 } else u }
  let s2 := s1.countProbe w a t.key fun c => { c with sthits := c.sthits + 1 }
  (s2.onStack st fun k => k.bump 1 1).onWork w.id fun u =>
    { u with job := .act { a with tiles := a.tiles.filter fun v => decide (v.index ≠ t.index), settling := a.settling ++ [(t, out, bad)] } }

/-- A miss of each kind, counted and settled (R360). -/
def State.takeMiss (s : State) (w : Work) (a : ActJob) (t : TileJob) (st : BitVec 4) (stale forced : Bool) : State :=
  let s1 := s.countProbe w a t.key fun c =>
    { c with
      stmisses := c.stmisses + 1
      ststale := if stale then c.ststale + 1 else c.ststale
      stforced := if forced then c.stforced + 1 else c.stforced }
  let s2 := s1.onStack st fun k =>
    ((k.bump 2 1).bump 3 (if forced then 1 else 0)).bump 4 (if stale then 1 else 0)
  s2.settleTile w a t.index

/-- The lowest tile of a probe decided (R360). -/
def State.decideTile (s : State) (w : Work) (a : ActJob) (t : TileJob) : State :=
  let o := Owner.engine w.id t.index
  match s.tilePlace w ⟨true, false, false⟩ t.input a.bytes with
  | (.error e, s1) => s1.engineStop w t.index t.index 1 e
  | (.ok (ps, st), s1) =>
    let r := State.engineReads w o ps s1
    let s2 := (r.2.countProbe w a t.key fun c => { c with stprobes := c.stprobes + 1 }).onStack st fun k => k.bump 0 1
    match s2.probe w a t st (r.1.map Prod.fst) with
    | .absent => s2.takeMiss w a t st false false
    | .stale => s2.takeMiss w a t st true false
    | .forced => s2.takeMiss w a t st false true
    | .far => s2.takeMiss w a t st false false
    | .hit e => s2.takeHit w a t st e

/-- No earlier probe or fill of the same hart has tiles left to decide (R363). -/
def State.actTurn (s : State) (w : Work) : Bool :=
  !(s.works.any fun v => decide (v.id < w.id) && decide (v.issuer.serial = w.issuer.serial) &&
    (match v.job with
     | .act a => !a.tiles.isEmpty
     | _ => false))

/-- Work with no tile makes its one contribution of 0 bytes (R358, R361). -/
def State.emptyAct (s : State) (w : Work) : State := s.contributeWork w 0 fun t => t.endWork w.id

/-- The next action of a probe or fill at a directory: `f` on its lowest tile. -/
def State.actStep (s0 : State) (id : Nat) (fill : Bool) (f : State → Work → ActJob → TileJob → State) : State :=
  match s0.workOf id with
  | some w =>
    match w.job with
    | .act a =>
      if (a.fill != fill) || !s0.actTurn w || s0.awHeld w then s0
      else
        match a.tiles with
        | [] => if a.settling.isEmpty then s0.emptyAct w else s0
        | t :: _ => if s0.stalled (.engine id t.index) then s0 else f (s0.beginWork id) w a t
    | _ => s0
  | none => s0

/-- The event PROBE_DECISION (R360). -/
def execProbeDecision (id : Nat) (s : State) : Host.Outcome State Fault Refusal :=
  .next (s.actStep id false State.decideTile)

/-- A hit's replayed output performed, its bit set and its bytes contributed (R360). -/
def State.settleHit (s0 : State) (id tile : Nat) : State :=
  match s0.workOf id with
  | some w =>
    match w.job with
    | .act a =>
      match a.settling.find? fun t => decide (t.1.index = tile) with
      | some (t, out, bad) =>
        if s0.stalled (.engine id tile) || s0.awHeld w then s0
        else
          match s0.tilePlace w ⟨false, true, false⟩ t.output a.bytes with
          | (.error e, s1) => s1.engineStop w tile tile 2 e
          | (.ok (ps, _), s1) =>
            let s2 := State.engineWrites w (.engine id tile) ps (out.map fun b => (b, bad)) s1
            (s2.setOwnedBits id a.md (1#8192 <<< tile)).settleTile w a tile
      | none => s0
    | _ => s0
  | none => s0

/-- The event TILE_SETTLED (R360). -/
def execTileSettled (id tile : Nat) (s : State) : Host.Outcome State Fault Refusal := .next (s.settleHit id tile)

/-! ## Fills (R361) -/

/-- An entry filled: the present entry of its key and ASID replaced, others evicted while there is no room (R356). A fill
that no longer fits the arena leaves the directory as it is. -/
def State.fillDir (s : State) (w : Work) (a : ActJob) (t : TileJob) (st : BitVec 4) (data : Marked) : State :=
  let asid := asidOf w.issuer.ptbase
  let kept := (s.stackAt st).dir.filter fun e => !e.names t.key asid
  let n := 2 * a.bytes
  match (if s.arenaBytes < n then none else makeRoom s.arenaBytes n (Config.choice s.draws) (kept.length + 1) kept) with
  | none => s
  | some (dir, slot, evicted) =>
    let clock := (s.stackAt st).useClock + 1
    let e : DirEntry := ⟨field t.key 40 16, field t.key 24 16, field t.key 0 24, asid, a.bytes, a.fmt, a.step, 0, clock, slot⟩
    let s1 := s.draw.onStack st fun k => { k with dir := dir ++ [e], useClock := clock }.bump 5 evicted
    let s2 := (s1.writeLoc (s1.slotLoc st e) (data.map Prod.fst)).countAccess false (s1.slotLoc st e) n
    (List.range data.length).foldl (fun s i =>
      if (data.getD i (0, false)).2 then s.poisonLoc (s2.slotLoc st e + i) 1 else s) s2

/-- The lowest tile of a fill: both copies read, the entry filled, the bytes contributed (R361). -/
def State.fillTile (s : State) (w : Work) (a : ActJob) (t : TileJob) : State :=
  let o := Owner.engine w.id t.index
  match s.tilePlace w ⟨true, false, false⟩ t.input a.bytes with
  | (.error e, s1) => s1.engineStop w t.index t.index 1 e
  | (.ok (ps, st), s1) =>
    match s1.tilePlace w ⟨true, false, false⟩ t.output a.bytes with
    | (.error e, s2) => s2.engineStop w t.index t.index 1 e
    | (.ok (qs, _), s2) =>
      let x := State.engineReads w o ps s2
      let y := State.engineReads w o qs x.2
      (y.2.fillDir w a t st (x.1 ++ y.1)).settleTile w a t.index

/-- The event FILL_ENTRY (R361). -/
def execFillEntry (id : Nat) (s : State) : Host.Outcome State Fault Refusal := .next (s.actStep id true State.fillTile)

/-! ## stctl (R362) -/

/-- Entries of every stack invalidated. -/
def State.invalidate (s : State) (p : DirEntry → Bool) : State :=
  { s with stack := s.stack.map fun t => { t with dir := t.dir.filter fun e => !p e } }

/-- The hart has no probe or fill with a tile left to decide. -/
def State.actsDecided (s : State) : Bool :=
  !(s.works.any fun v => s.hart.started v.issuer &&
    (match v.job with
     | .act a => !a.tiles.isEmpty
     | _ => false))

/-- `stctl` performed (R362): xa chooses the operation. It waits while the queue of the hart's home stack has no room for its
command (R339; assumption log 110). -/
def State.stctl (s0 : State) (i : Instr) (a b : BitVec 5) : State :=
  let s := s0.performStores
  let xa := s.x a
  let asid := asidOf s.hart.csr.ptbase
  if 2 < xa.toNat then s.refuse .bound xa
  else if xa = 2 ∧ s.hart.mode = .user then s.refuse .access 2
  else if !s.actsDecided || !s.queueRoom (homeOf s.hart.id) .acts then s.await i
  else
    s.complete 4 fun t => t.invalidate fun e =>
      match xa.toNat with
      | 0 => e.asid == asid && e.stream == field (s.x b) 0 16
      | 1 => e.asid == asid
      | _ => true

/-- `stctl` with xa = 0 performed (R362). -/
def stctlStreamNow (a b : BitVec 5) (s : State) : State := s.stctl (.stctlStream a b) a b

/-- `stctl` with xa = 0 (R362). -/
def execStctlStream (a b : BitVec 5) (s : State) : Host.Outcome State Fault Refusal :=
  .next (s.start (.stctlStream a b) [a, b] s.engineReady (stctlStreamNow a b s))

/-- `stctl` with xa = 1 performed (R362). -/
def stctlAsidNow (a b : BitVec 5) (s : State) : State := s.stctl (.stctlAsid a b) a b

/-- `stctl` with xa = 1 (R362). -/
def execStctlAsid (a b : BitVec 5) (s : State) : Host.Outcome State Fault Refusal :=
  .next (s.start (.stctlAsid a b) [a, b] s.engineReady (stctlAsidNow a b s))

/-- `stctl` with xa = 2 performed (R362). -/
def stctlAllNow (a b : BitVec 5) (s : State) : State := s.stctl (.stctlAll a b) a b

/-- `stctl` with xa = 2 (R362). -/
def execStctlAll (a b : BitVec 5) (s : State) : Host.Outcome State Fault Refusal :=
  .next (s.start (.stctlAll a b) [a, b] s.engineReady (stctlAllNow a b s))

end Sys2Proof.Machine
end

