-- ==== Sys2Proof/Machine/Atomics.lean ====
section
/-! DEFINITION. Atomics.lean: the relaxed and the acquire-release atomics (R107, R108, R165). -/

namespace Sys2Proof.Machine

/-- The bytes of an atomic's word. -/
def amoBytes (w : BitVec 1) : Nat := if w = 1 then 8 else 4

/-- An atomic (R107): rd receives the old value. -/
def State.atomic (s t : State) (i : Instr) (op : Nat) (w : BitVec 1) (d b a : BitVec 5) : State :=
  let n := amoBytes w
  s.accessing (some i) 4 (s.atomicReach op (s.x a) n)
    (t.scalarAtomic op (s.x a) n (s.x b) (s.x d)) fun v u => u.setX d (if n = 4 then sextFrom 32 v else v)

/-- `amoadd` performed (R107). -/
def amoaddNow (w : BitVec 1) (d b a : BitVec 5) (sc : BitVec 4) (s : State) : State :=
  s.atomic s (.amoadd w d b a sc) 0 w d b a

/-- `amoadd` (R107). -/
def execAmoadd (w : BitVec 1) (d b a : BitVec 5) (sc : BitVec 4) (s : State) : Host.Outcome State Fault Refusal :=
  .next (s.start (.amoadd w d b a sc) [d, b, a] true (amoaddNow w d b a sc s))

/-- `amoand` performed (R107). -/
def amoandNow (w : BitVec 1) (d b a : BitVec 5) (sc : BitVec 4) (s : State) : State :=
  s.atomic s (.amoand w d b a sc) 1 w d b a

/-- `amoand` (R107). -/
def execAmoand (w : BitVec 1) (d b a : BitVec 5) (sc : BitVec 4) (s : State) : Host.Outcome State Fault Refusal :=
  .next (s.start (.amoand w d b a sc) [d, b, a] true (amoandNow w d b a sc s))

/-- `amoor` performed (R107). -/
def amoorNow (w : BitVec 1) (d b a : BitVec 5) (sc : BitVec 4) (s : State) : State :=
  s.atomic s (.amoor w d b a sc) 2 w d b a

/-- `amoor` (R107). -/
def execAmoor (w : BitVec 1) (d b a : BitVec 5) (sc : BitVec 4) (s : State) : Host.Outcome State Fault Refusal :=
  .next (s.start (.amoor w d b a sc) [d, b, a] true (amoorNow w d b a sc s))

/-- `amoxor` performed (R107). -/
def amoxorNow (w : BitVec 1) (d b a : BitVec 5) (sc : BitVec 4) (s : State) : State :=
  s.atomic s (.amoxor w d b a sc) 3 w d b a

/-- `amoxor` (R107). -/
def execAmoxor (w : BitVec 1) (d b a : BitVec 5) (sc : BitVec 4) (s : State) : Host.Outcome State Fault Refusal :=
  .next (s.start (.amoxor w d b a sc) [d, b, a] true (amoxorNow w d b a sc s))

/-- `amomin` performed (R107). -/
def amominNow (w : BitVec 1) (d b a : BitVec 5) (sc : BitVec 4) (s : State) : State :=
  s.atomic s (.amomin w d b a sc) 4 w d b a

/-- `amomin` (R107). -/
def execAmomin (w : BitVec 1) (d b a : BitVec 5) (sc : BitVec 4) (s : State) : Host.Outcome State Fault Refusal :=
  .next (s.start (.amomin w d b a sc) [d, b, a] true (amominNow w d b a sc s))

/-- `amomax` performed (R107). -/
def amomaxNow (w : BitVec 1) (d b a : BitVec 5) (sc : BitVec 4) (s : State) : State :=
  s.atomic s (.amomax w d b a sc) 5 w d b a

/-- `amomax` (R107). -/
def execAmomax (w : BitVec 1) (d b a : BitVec 5) (sc : BitVec 4) (s : State) : Host.Outcome State Fault Refusal :=
  .next (s.start (.amomax w d b a sc) [d, b, a] true (amomaxNow w d b a sc s))

/-- `amoswap` performed (R107). -/
def amoswapNow (w : BitVec 1) (d b a : BitVec 5) (sc : BitVec 4) (s : State) : State :=
  s.atomic s (.amoswap w d b a sc) 6 w d b a

/-- `amoswap` (R107). -/
def execAmoswap (w : BitVec 1) (d b a : BitVec 5) (sc : BitVec 4) (s : State) : Host.Outcome State Fault Refusal :=
  .next (s.start (.amoswap w d b a sc) [d, b, a] true (amoswapNow w d b a sc s))

/-- `amocas` performed (R107). -/
def amocasNow (w : BitVec 1) (d b a : BitVec 5) (sc : BitVec 4) (s : State) : State :=
  s.atomic s (.amocas w d b a sc) 7 w d b a

/-- `amocas` (R107). -/
def execAmocas (w : BitVec 1) (d b a : BitVec 5) (sc : BitVec 4) (s : State) : Host.Outcome State Fault Refusal :=
  .next (s.start (.amocas w d b a sc) [d, b, a] true (amocasNow w d b a sc s))

/-! ## Acquire-release (R165) -/

/-- `amoaddAcqrel` performed (R165). -/
def amoaddAcqrelNow (w : BitVec 1) (d b a : BitVec 5) (sc : BitVec 4) (s : State) : State :=
  s.afterRelease sc fun t => s.atomic t (.amoaddAcqrel w d b a sc) 0 w d b a

/-- `amoaddAcqrel` (R165). -/
def execAmoaddAcqrel (w : BitVec 1) (d b a : BitVec 5) (sc : BitVec 4) (s : State) : Host.Outcome State Fault Refusal :=
  .next (s.start (.amoaddAcqrel w d b a sc) [d, b, a] (s.released sc) (amoaddAcqrelNow w d b a sc s))

/-- `amoandAcqrel` performed (R165). -/
def amoandAcqrelNow (w : BitVec 1) (d b a : BitVec 5) (sc : BitVec 4) (s : State) : State :=
  s.afterRelease sc fun t => s.atomic t (.amoandAcqrel w d b a sc) 1 w d b a

/-- `amoandAcqrel` (R165). -/
def execAmoandAcqrel (w : BitVec 1) (d b a : BitVec 5) (sc : BitVec 4) (s : State) : Host.Outcome State Fault Refusal :=
  .next (s.start (.amoandAcqrel w d b a sc) [d, b, a] (s.released sc) (amoandAcqrelNow w d b a sc s))

/-- `amoorAcqrel` performed (R165). -/
def amoorAcqrelNow (w : BitVec 1) (d b a : BitVec 5) (sc : BitVec 4) (s : State) : State :=
  s.afterRelease sc fun t => s.atomic t (.amoorAcqrel w d b a sc) 2 w d b a

/-- `amoorAcqrel` (R165). -/
def execAmoorAcqrel (w : BitVec 1) (d b a : BitVec 5) (sc : BitVec 4) (s : State) : Host.Outcome State Fault Refusal :=
  .next (s.start (.amoorAcqrel w d b a sc) [d, b, a] (s.released sc) (amoorAcqrelNow w d b a sc s))

/-- `amoxorAcqrel` performed (R165). -/
def amoxorAcqrelNow (w : BitVec 1) (d b a : BitVec 5) (sc : BitVec 4) (s : State) : State :=
  s.afterRelease sc fun t => s.atomic t (.amoxorAcqrel w d b a sc) 3 w d b a

/-- `amoxorAcqrel` (R165). -/
def execAmoxorAcqrel (w : BitVec 1) (d b a : BitVec 5) (sc : BitVec 4) (s : State) : Host.Outcome State Fault Refusal :=
  .next (s.start (.amoxorAcqrel w d b a sc) [d, b, a] (s.released sc) (amoxorAcqrelNow w d b a sc s))

/-- `amominAcqrel` performed (R165). -/
def amominAcqrelNow (w : BitVec 1) (d b a : BitVec 5) (sc : BitVec 4) (s : State) : State :=
  s.afterRelease sc fun t => s.atomic t (.amominAcqrel w d b a sc) 4 w d b a

/-- `amominAcqrel` (R165). -/
def execAmominAcqrel (w : BitVec 1) (d b a : BitVec 5) (sc : BitVec 4) (s : State) : Host.Outcome State Fault Refusal :=
  .next (s.start (.amominAcqrel w d b a sc) [d, b, a] (s.released sc) (amominAcqrelNow w d b a sc s))

/-- `amomaxAcqrel` performed (R165). -/
def amomaxAcqrelNow (w : BitVec 1) (d b a : BitVec 5) (sc : BitVec 4) (s : State) : State :=
  s.afterRelease sc fun t => s.atomic t (.amomaxAcqrel w d b a sc) 5 w d b a

/-- `amomaxAcqrel` (R165). -/
def execAmomaxAcqrel (w : BitVec 1) (d b a : BitVec 5) (sc : BitVec 4) (s : State) : Host.Outcome State Fault Refusal :=
  .next (s.start (.amomaxAcqrel w d b a sc) [d, b, a] (s.released sc) (amomaxAcqrelNow w d b a sc s))

/-- `amoswapAcqrel` performed (R165). -/
def amoswapAcqrelNow (w : BitVec 1) (d b a : BitVec 5) (sc : BitVec 4) (s : State) : State :=
  s.afterRelease sc fun t => s.atomic t (.amoswapAcqrel w d b a sc) 6 w d b a

/-- `amoswapAcqrel` (R165). -/
def execAmoswapAcqrel (w : BitVec 1) (d b a : BitVec 5) (sc : BitVec 4) (s : State) : Host.Outcome State Fault Refusal :=
  .next (s.start (.amoswapAcqrel w d b a sc) [d, b, a] (s.released sc) (amoswapAcqrelNow w d b a sc s))

/-- `amocasAcqrel` performed (R165). -/
def amocasAcqrelNow (w : BitVec 1) (d b a : BitVec 5) (sc : BitVec 4) (s : State) : State :=
  s.afterRelease sc fun t => s.atomic t (.amocasAcqrel w d b a sc) 7 w d b a

/-- `amocasAcqrel` (R165). -/
def execAmocasAcqrel (w : BitVec 1) (d b a : BitVec 5) (sc : BitVec 4) (s : State) : Host.Outcome State Fault Refusal :=
  .next (s.start (.amocasAcqrel w d b a sc) [d, b, a] (s.released sc) (amocasAcqrelNow w d b a sc s))

end Sys2Proof.Machine
end

