-- ==== Sys2Proof/Machine/Coll.lean ====
section
/-! DEFINITION. Coll.lean: named buffers and collectives (R402 to R407). -/

namespace Sys2Proof.Machine

/-! ## Names (R403, R404) -/

/-- COLLOPT.format. -/
def Csrs.collFmt (c : Csrs) : BitVec 4 := field c.collopt 0 4

/-- COLLOPT.group. -/
def Csrs.collGroup (c : Csrs) : BitVec 8 := field c.collopt 8 8

/-- The registration of a name. -/
def State.nameOf (s : State) (n : Nat) : Option Name := s.names.find? fun k => decide (k.name = n)

/-- A collective on a name is in flight. -/
def State.nameBusy (s : State) (n : Nat) : Bool :=
  s.works.any fun w =>
    match w.job with
    | .coll c => decide (c.name = n)
    | _ => false

/-- The checks of `cname` (R404). -/
def State.cnameChecks (s : State) (n a b : Word) : List Check :=
  let f := s.hart.csr.collFmt.toNat
  [(decide (4096 ≤ n.toNat), .bound, n), (decide (f = 0) || decide (3 < f), .bound, s.hart.csr.collopt),
    (decide (b = 0) || decide (b.toNat % 256 ≠ 0) || decide (0xFFFFFF00 < b.toNat), .bound, b),
    (decide (a.toNat % 256 ≠ 0), .misalign, a), (!canonical a || inLocal a, .access, a),
    (s.nameBusy n.toNat, .bound, n)]

/-- A name registered (R404). -/
def State.registerName (s : State) (n : Nat) (addr : Word) (bytes : Nat) : State :=
  let c := s.hart.csr
  let k : Name := ⟨n, addr, bytes, c.collFmt, c.collGroup, c.ptbase, s.hart.mode, 0⟩
  { s with names := s.names.filter (fun q => decide (q.name ≠ n)) ++ [k] }

/-- `cname` performed (R404). -/
def cnameNow (n a b : BitVec 5) (s : State) : State :=
  s.launchWork (.cname n a b) (s.cnameChecks (s.x n) (s.x a) (s.x b)) 0 true fun t =>
    t.registerName (s.x n).toNat (s.x a) (s.x b).toNat

/-- `cname` (R404). -/
def execCname (n a b : BitVec 5) (s : State) : Host.Outcome State Fault Refusal :=
  .next (s.start (.cname n a b) [n, a, b] s.engineReady (cnameNow n a b s))

/-! ## Groups (R402) -/

/-- A usable group descriptor: the number of ranks, this package's rank, and the list of their positions. -/
structure CollGroup where
  q : Nat
  rank : Nat
  list : Nat
  deriving DecidableEq, Repr

/-- The descriptor of a group; `none` when it cannot be used (R404). -/
def State.group (s : State) (g : BitVec 8) : Option CollGroup :=
  match s.dramAt (s.pkg.cgbase.toNat + 64 * g.toNat) with
  | none => none
  | some l =>
    let d := s.readLoc l 64
    let q := fieldAt d 0 2
    let r := fieldAt d 2 2
    let list := fieldAt d 8 8
    let here := (List.range q).all fun i =>
      (s.dramAt (list + 4 * i)).isSome && (s.dramAt (list + 4 * i + 3)).isSome
    if q = 0 ∨ 4096 < q ∨ q ≤ r ∨ fieldAt d 4 4 ≠ 0 ∨ fieldAt d 16 48 ≠ 0 ∨ here = false then none else some ⟨q, r, list⟩

/-- The position of a rank in the list of its group, as 32 bits in FABCOORD's layout. -/
def State.rankPosition (s : State) (g : CollGroup) (k : Nat) : Nat :=
  leNat (tabulate 4 fun j => ((s.dramAt (g.list + 4 * k + j)).map (readCell s.mem)).getD 0)

/-- The other ranks of a group that a packet finds a route to (R400, R402). -/
def State.ranksReached (s : State) (g : CollGroup) : List Nat :=
  (List.range g.q).filter fun k => decide (k ≠ g.rank) &&
    (let e := s.rankPosition g k
     s.spinelReaches (e % 32) (e / 2 ^ 8 % 32) (e / 2 ^ 16 % 32))

/-- A message to the other ranks of a group, as far as routes lead to them; none where no route does. -/
def State.toRanks (s : State) (g : CollGroup) (m : List Nat → Message) : State :=
  if (s.ranksReached g).isEmpty then s else s.transmit (m (s.ranksReached g))

/-! ## coll (R404) -/

/-- The checks of `coll` (R404). -/
def State.collChecks (s : State) (n o a : Word) : List Check :=
  let registered := match s.nameOf n.toNat with
    | some k => asidOf k.ptbase == asidOf s.hart.csr.ptbase
    | none => false
  [(decide (4096 ≤ n.toNat), .bound, n), (!registered, .access, n), (decide (2 < o.toNat), .bound, o),
    (decide (a.toNat % 16 ≠ 0), .misalign, a), (decide (a ≠ 0) && !engineAddress s.hart.id a, .access, a)]

/-- The next collective on a name, as work of this package. A rank whose descriptor cannot be used aborts it at once. -/
def State.startColl (s : State) (n : Nat) (op : BitVec 2) (aw : Word) : State :=
  match s.nameOf n with
  | none => s
  | some k =>
    let n256 := k.bytes / 256
    let c : Coll := ⟨n, k.group, k.ordinal, op, k.addr, k.bytes, k.fmt, k.ptbase, k.mode, aw, List.replicate n256 none,
      List.replicate n256 .todo⟩
    let s1 := { s with names := s.names.map fun (q : Name) => if q.name = n then { q with ordinal := q.ordinal + 1 } else q }
    let id := s1.nextWork
    let s2 := s1.enqueueWork (homeOf s.hart.id) (.coll c)
    match s2.group k.group, s2.workOf id with
    | none, some w => s2.abortWork w 0x11
    | _, _ => s2

/-- Collectives in flight in the package. -/
def State.collsInFlight (s : State) : Nat :=
  (s.works.filter fun w =>
    match w.job with
    | .coll _ => true
    | _ => false).length

/-- `coll` performed (R404): xo chooses the operation; it waits while 256 collectives run. -/
def State.coll (s : State) (i : Instr) (n o a : BitVec 5) : State :=
  s.launchWork i (s.collChecks (s.x n) (s.x o) (s.x a)) (s.x a) (decide (s.collsInFlight < 256)) fun t =>
    t.startColl (s.x n).toNat ((s.x o).setWidth 2) (s.x a)

/-- `coll` with xo = 0 performed (R404). -/
def collAllReduceNow (n a b : BitVec 5) (s : State) : State := s.coll (.collAllReduce n a b) n a b

/-- `coll` with xo = 0 (R404). -/
def execCollAllReduce (n a b : BitVec 5) (s : State) : Host.Outcome State Fault Refusal :=
  .next (s.start (.collAllReduce n a b) [n, a, b] s.engineReady (collAllReduceNow n a b s))

/-- `coll` with xo = 1 performed (R404). -/
def collAllGatherNow (n a b : BitVec 5) (s : State) : State := s.coll (.collAllGather n a b) n a b

/-- `coll` with xo = 1 (R404). -/
def execCollAllGather (n a b : BitVec 5) (s : State) : Host.Outcome State Fault Refusal :=
  .next (s.start (.collAllGather n a b) [n, a, b] s.engineReady (collAllGatherNow n a b s))

/-- `coll` with xo = 2 performed (R404). -/
def collReduceScatterNow (n a b : BitVec 5) (s : State) : State := s.coll (.collReduceScatter n a b) n a b

/-- `coll` with xo = 2 (R404). -/
def execCollReduceScatter (n a b : BitVec 5) (s : State) : Host.Outcome State Fault Refusal :=
  .next (s.start (.collReduceScatter n a b) [n, a, b] s.engineReady (collReduceScatterNow n a b s))

/-! ## The result (R405) -/

/-- Element k of the reduction, from the buffers of rank 0 to q−1. -/
def ringSum (f : Elem) (xs : List (List Byte)) (k : Nat) : Nat :=
  let e (d : List Byte) : Nat := widen32 f (fieldAt d (k * f.width / 8) (f.width / 8))
  let v := match xs with
    | [] => 0
    | x :: rest => rest.foldl (fun v d => add32 v (e d)) (e x)
  (toFloat f 0 false (decodeF .fp32 v)).1

/-- The bytes of the reduction. -/
def ringBytes (f : Elem) (xs : List (List Byte)) (bytes : Nat) : List Byte :=
  (List.range (bytes * 8 / f.width)).flatMap fun k => toBytes (ringSum f xs k) (f.width / 8)

/-- The segments of rank k's shard of a buffer of B bytes. -/
def shardSegs (bytes q k : Nat) : List Nat := tabulate (bytes / q / 256) fun i => k * (bytes / q / 256) + i

/-- The rank whose shard holds a segment. -/
def shardOf (bytes q seg : Nat) : Nat := seg / (bytes / q / 256)

/-- The segments that a rank writes: all, or those of its own shard in a reduce-scatter (R405). -/
def outSegs (op : BitVec 2) (bytes q rank : Nat) : List Nat :=
  if op.toNat = 2 then shardSegs bytes q rank else List.range (bytes / 256)

/-- The segments that a rank reads: all, or those of its own shard in an all-gather (R405). -/
def inSegs (op : BitVec 2) (bytes q rank : Nat) : List Nat :=
  if op = 1 ∧ bytes % (256 * q) = 0 then shardSegs bytes q rank else List.range (bytes / 256)

/-- The ranks whose bytes go into a segment that this rank writes (R405). -/
def inRanks (op : BitVec 2) (bytes q seg : Nat) : List Nat := if op = 1 then [shardOf bytes q seg] else List.range q

/-- The format of a collective. -/
def collElem (c : BitVec 4) : Elem :=
  match c.toNat with
  | 2 => .fp16
  | 3 => .bf16
  | _ => .fp32

/-! ## Progress of a collective (R404, R406) -/

/-- What other ranks have sent of a collective. -/
def State.partsOf (s : State) (c : Coll) : List RankData :=
  (s.ranks.filter fun r => r.1 == c.group && decide (r.2.1 = c.name) && decide (r.2.2.1 = c.ordinal)).map fun r => r.2.2.2

/-- The parts of a collective forgotten. -/
def State.dropParts (s : State) (c : Coll) : State :=
  { s with ranks := s.ranks.filter fun r => !(r.1 == c.group && decide (r.2.1 = c.name) && decide (r.2.2.1 = c.ordinal)) }

/-- Segment `seg` of rank k. -/
def partOf (ps : List RankData) (k seg : Nat) : Option RankData :=
  ps.find? fun p => decide (p.rank = k) && decide (p.seg = seg) && p.aborted.isNone

/-- A collective aborts at this rank, and tells the others when it is the one that found the cause (R404). -/
def State.abortColl (s : State) (w : Work) (c : Coll) (cause : Nat) (tell : Bool) : State :=
  let s1 := (s.dropParts c).abortWork w (BitVec.ofNat 64 cause)
  match (if tell then s.group c.group else none) with
  | some g => s1.toRanks g (.collectiveAbort c.group c.name c.ordinal g.rank (BitVec.ofNat 8 cause))
  | none => s1

/-- The work of a collective as its buffer is reached: under the registration's PTBASE and mode. -/
def Work.buffered (w : Work) (c : Coll) : Work := { w with issuer := { w.issuer with ptbase := c.ptbase, mode := c.mode } }

/-- The work of that number with its collective, if it is still there. -/
def State.collOf (s : State) (id : Nat) : Option (Work × Coll) :=
  match s.workOf id with
  | some w =>
    match w.job with
    | .coll c => some (w, c)
    | _ => none
  | none => none

/-- A segment reached for reading or for writing, then `f` on its place. A replayable fault stalls that segment alone; a
finding that is not replayable aborts, a remote page included (R404). -/
def State.onSegment (s : State) (w : Work) (c : Coll) (seg : Nat) (write : Bool) (f : State → List Piece → State) : State :=
  if s.stalled (.engine w.id seg) then s
  else
    match State.enginePlaces (w.buffered c) ⟨!write, write, false⟩ (spansOf (c.addr + BitVec.ofNat 64 (256 * seg)) 256) s with
    | (.error (.invalid lvl va), s1) =>
      s1.draw.stall (.engine w.id seg) (s1.engineFault (w.buffered c) va (if write then 2 else 1) lvl s1.freePosition)
    | (.error .wait, s1) => s1
    | (.error _, s1) => s1.abortColl w c 0x13 true
    | (.ok ps, s1) =>
      if ps.any fun p => (match p.place with
          | .away _ => true
          | .here _ => false) then s1.abortColl w c 0x13 true
      else f s1 ps

/-- A segment of this rank's buffer read and sent to the other ranks. -/
def State.sendSegment (s : State) (id : Nat) (g : CollGroup) (seg : Nat) : State :=
  match s.collOf id with
  | some (w, c) =>
    if (c.own.getD seg none).isSome then s
    else
      s.onSegment w c seg false fun s1 ps =>
        let r := State.engineReads (w.buffered c) (.engine w.id seg) ps s1
        (r.2.toRanks g (.collectivePart c.group c.name c.ordinal g.rank c.op c.bytes c.fmt seg (r.1.map Prod.fst))).onWork id
          fun u => { u with job := .coll { c with own := c.own.set seg (some r.1) } }
  | none => s

/-- What rank k has at a segment, where it is known: this rank's own bytes, or what the other has sent. -/
def Coll.input (c : Coll) (g : CollGroup) (parts : List RankData) (k seg : Nat) : Option (List Byte) :=
  if k = g.rank then (c.own.getD seg none).map fun d => d.map Prod.fst else (partOf parts k seg).map RankData.buffer

/-- The output bytes of a segment, once every input is there (R405). -/
def Coll.output (c : Coll) (g : CollGroup) (parts : List RankData) (seg : Nat) : Option (List Byte) :=
  ((inRanks c.op c.bytes g.q seg).mapM fun k => c.input g parts k seg).map fun xs =>
    if c.op = 1 then xs.flatten else ringBytes (collElem c.fmt) xs 256

/-- The marks of the output of a rank whose own bytes were read from bad data. -/
def Coll.marks (c : Coll) (g : CollGroup) (seg : Nat) (out : List Byte) : Marked :=
  let n := (collElem c.fmt).width / 8
  let own := if (inRanks c.op c.bytes g.q seg).contains g.rank then (c.own.getD seg none).getD [] else []
  tabulate out.length fun i => (out.getD i 0, ((own.drop (i / n * n)).take n).any Prod.snd)

/-- A segment's output written, once: the segment has been read if it is, and every input is there (R405, R406). -/
def State.writeSegment (s : State) (id : Nat) (g : CollGroup) (seg : Nat) : State :=
  match s.collOf id with
  | some (w, c) =>
    match (if c.out[seg]? = some .todo ∧
        ((inSegs c.op c.bytes g.q g.rank).all fun k => decide (k ≠ seg) || (c.own.getD k none).isSome) = true then c.output g (s.partsOf c) seg else none) with
    | some out =>
      s.onSegment w c seg true fun s1 ps =>
        (State.engineWrites (w.buffered c) (.engine w.id seg) ps (c.marks g seg out) s1).onWork id
          fun u => { u with job := .coll { c with out := c.out.set seg .done } }
    | none => s
  | none => s

/-- The other ranks of a group. -/
def CollGroup.others (g : CollGroup) : List Nat := (List.range g.q).filter fun k => decide (k ≠ g.rank)

/-- The collective is matched: every other rank has sent something of it (R404). -/
def Coll.matched (_c : Coll) (g : CollGroup) (parts : List RankData) : Bool :=
  g.others.all fun k => parts.any fun p => decide (p.rank = k) && p.aborted.isNone

/-- Another rank differs in operation, byte count or format (R404). -/
def Coll.differs (c : Coll) (parts : List RankData) : Bool :=
  parts.any fun p => p.aborted.isNone && (p.op != c.op || decide (p.bytes ≠ c.bytes) || p.fmt != c.fmt)

/-- A matched collective as far as its segments allow: its outputs performed, and, once all are and every segment has been
sent, the contribution (R404 to R406). -/
def State.performColl (s : State) (id : Nat) (w : Work) (c : Coll) (g : CollGroup) : State :=
  if c.differs (s.partsOf c) then s.abortColl w c 0x10 true
  else if c.op ≠ 0 ∧ c.bytes % (256 * g.q) ≠ 0 then s.abortColl w c 0x12 true
  else
    let outs := outSegs c.op c.bytes g.q g.rank
    let s1 := outs.foldl (fun t k => t.writeSegment id g k) s
    match s1.collOf id with
    | some (v, d) =>
      if (outs.all fun k => decide (d.out[k]? = some .done)) &&
          ((inSegs c.op c.bytes g.q g.rank).all fun k => (d.own.getD k none).isSome) then
        (s1.dropParts d).contributeWork v (256 * outs.length) fun t => t.endWork id
      else s1
    | none => s1

/-- The event COLL_COMPLETE (R406), as far as the collective can go: the segments of its buffer are read and sent; its
outputs are performed and contributed once the parts that they need are there. -/
def State.collStep (s : State) (id : Nat) : State :=
  match s.collOf id with
  | some (w, c) =>
    if s.awHeld w then s
    else
      match s.group c.group with
      | none => s.abortColl w c 0x11 false
      | some g =>
        match (s.partsOf c).findSome? RankData.aborted with
        | some cause => s.abortColl w c cause.toNat false
        | none =>
          let s1 := (inSegs c.op c.bytes g.q g.rank).foldl (fun t k => t.sendSegment id g k) (s.beginWork id)
          match s1.collOf id with
          | some (v, d) => if d.matched g (s1.partsOf d) then s1.performColl id v d g else s1
          | none => s1
  | none => s

/-- The event COLL_COMPLETE (R406). -/
def execCollComplete (id : Nat) (s : State) : Host.Outcome State Fault Refusal := .next (s.collStep id)

/-- The rank waits for another: one has sent nothing, or a segment that this rank needs has not come (R404). -/
def Coll.waits (c : Coll) (g : CollGroup) (parts : List RankData) : Bool :=
  !c.matched g parts ||
    (outSegs c.op c.bytes g.q g.rank).any fun seg => decide (c.out[seg]? = some .todo) &&
      (inRanks c.op c.bytes g.q seg).any fun k => decide (k ≠ g.rank) && (partOf parts k seg).isNone

/-- A rank has waited more than CTIMEOUT for another (R404); CTIMEOUT 0 disables it. -/
def State.collTimeout (s : State) (id : Nat) : State :=
  match s.collOf id with
  | some (w, c) =>
    match s.group c.group with
    | some g => if s.pkg.ctimeout = 0 ∨ c.waits g (s.partsOf c) = false ∨ s.awHeld w = true then s else s.abortColl w c 0x14 true
    | none => s
  | none => s

/-- The event COLL_TIMEOUT (R404). -/
def execCollTimeout (id : Nat) (s : State) : Host.Outcome State Fault Refusal := .next (s.collTimeout id)

end Sys2Proof.Machine
end

