-- ==== Sys2Proof/Machine/Csr.lean ====
section
/-! DEFINITION. Csr.lean: the CSRs and their instructions (R8, R9, R87 to R91, R106, R111 to R113, R156, R173, R174, R202,
R209, R214, R215, R267, R271, R297, R298, R332, R337, R342, R357, R364, R382, R401, R403). A write of any CSR waits for the
convoys in flight. -/

namespace Sys2Proof.Machine

/-! ## Hart CSRs that hold a value of their own -/

/-- The bits of a hart CSR that are RW (R8, R9). -/
def hartMask (n : Nat) : Word :=
  match n with
  | 0x000 => 0x3EF
  | 0x003 => 0x7FFF
  | 0x004 => 0xFFFFFFFF
  | 0x00A => 0xFFFFFFFFFFFFFFFF
  | 0x00B => 0xFFFFFFFFFFFFFFFE
  | 0x00C => 0xFFFFFFFFFFFFFFFE
  | 0x00D => 0xFFFFFFFFFFFFFFFF
  | 0x00E => 0xFFFFFFFFFFFFFFFE
  | 0x00F => 0xFFFFFFFFFFFFFFFE
  | 0x010 => 0x13F3F
  | 0x011 => 0xFFFFFFFFFFFFFFFF
  | 0x018 => 0xFFFFFFFFFFFFFFFF
  | 0x019 => 0xFFFFF
  | 0x01A => 0xFFFFFFFF
  | 0x01B => 0xFFFFFFFFFFFFFFFF
  | 0x01C => 0xFF0F
  | 0x020 => 0xFFFFFFFF
  | 0x021 => 0xFFFFFFFF
  | 0x022 => 0xF1FFFF
  | 0x023 => 0xFF
  | 0x024 => 0xFFFFFFFFFFFFFFFF
  | 0x025 => 0x1FFFF
  | 0x028 => 0xFFFFFFFFFFFFFFFF
  | 0x029 => 0xFFFFFFFFFFFFFFFF
  | 0x02A => 0xFFFFFFFFFFFFFFFF
  | 0x02B => 0xFFFFFFFFFFFFFFFF
  | 0x02C => 0xFFFFFFFFFFFFFFFF
  | 0x040 => 0xFFFFFFFFFFFFFFFE
  | 0x041 => 0xFFFFFFFFFFFFFFFE
  | 0x042 => 0x3F
  | 0x043 => 0x3F
  | 0x044 => 0xFFFFFFFF
  | 0x045 => 0xFFFFFFFFFFFFFFFF
  | 0x100 => 0x3
  | 0x101 => 0xFFFFFFFFFFFFFFFE
  | 0x102 => 0xFFFFFFFFFFFFFFFE
  | 0x103 => 0x3F
  | 0x104 => 0xFFFFFFFFFFFFFFFF
  | 0x105 => 0x3F
  | 0x106 => 0xFFFFFFFF
  | 0x107 => 0xC60
  | 0x109 => 0xFFFFFFFFFFFFF000
  | _ => 0

/-- A hart CSR's value; 0 for a number that Csrs holds nothing for. -/
def Csrs.read (c : Csrs) (n : Nat) : Word :=
  match n with
  | 0x000 => c.fpctl
  | 0x003 => c.ffx
  | 0x012 => c.bsum
  | 0x004 => c.vxb
  | 0x009 => c.cvret
  | 0x00A => c.lcnt[0]
  | 0x00B => c.lstart[0]
  | 0x00C => c.lend[0]
  | 0x00D => c.lcnt[1]
  | 0x00E => c.lstart[1]
  | 0x00F => c.lend[1]
  | 0x010 => c.mshp
  | 0x011 => c.mskip
  | 0x013 => c.bwin
  | 0x014 => c.bseq
  | 0x018 => c.cpaw
  | 0x019 => c.cpopt
  | 0x01A => c.cprows
  | 0x01B => c.cpstride
  | 0x01C => c.collopt
  | 0x020 => c.ststep
  | 0x021 => c.stthr
  | 0x022 => c.stsize
  | 0x023 => c.stmaxrep
  | 0x024 => c.staw
  | 0x025 => c.ststream
  | 0x028 => c.stprobes
  | 0x029 => c.sthits
  | 0x02A => c.stmisses
  | 0x02B => c.stforced
  | 0x02C => c.ststale
  | 0x040 => c.utvec
  | 0x041 => c.uepc
  | 0x042 => c.ucause
  | 0x043 => c.utgrp
  | 0x044 => c.ufei
  | 0x045 => c.utval
  | 0x050 => c.farmid
  | 0x051 => c.strips
  | 0x100 => c.status
  | 0x101 => c.tvec
  | 0x102 => c.tepc
  | 0x103 => c.tcause
  | 0x104 => c.tval
  | 0x105 => c.tgrp
  | 0x106 => c.fei
  | 0x107 => c.tdeleg
  | 0x108 => c.csa
  | 0x109 => c.ptbase
  | 0x10A => c.ctxid
  | _ => 0

/-- A write of BSUM: ones clear the error bits; clearing PV zeroes DISC and PVC, and the agent runs again (R329, R332). -/
def bsumWritten (old v : Word) : Word :=
  let w := old &&& ~~~(v &&& 0xE0FFFF)
  if bit old 23 && bit v 23 then w &&& 0x0000FFFFC0FFFFFF else w

/-- A hart CSR written under its access codes (R8, R9, R24, R90). -/
def Csrs.write (c : Csrs) (vmax n : Nat) (v : Word) : Csrs :=
  let k := v &&& hartMask n
  match n with
  | 0x000 => { c with fpctl := fpctlWritten c.fpctl v }
  | 0x003 => { c with ffx := ffxWritten vmax v }
  | 0x012 => { c with bsum := bsumWritten c.bsum v }
  | 0x004 => { c with vxb := k }
  | 0x00A => { c with lcnt := c.lcnt.set 0 k }
  | 0x00B => { c with lstart := c.lstart.set 0 k }
  | 0x00C => { c with lend := c.lend.set 0 k }
  | 0x00D => { c with lcnt := c.lcnt.set 1 k }
  | 0x00E => { c with lstart := c.lstart.set 1 k }
  | 0x00F => { c with lend := c.lend.set 1 k }
  | 0x010 => { c with mshp := k }
  | 0x011 => { c with mskip := k }
  | 0x018 => { c with cpaw := k }
  | 0x019 => { c with cpopt := k }
  | 0x01A => { c with cprows := k }
  | 0x01B => { c with cpstride := k }
  | 0x01C => { c with collopt := k }
  | 0x020 => { c with ststep := k }
  | 0x021 => { c with stthr := k }
  | 0x022 => { c with stsize := k }
  | 0x023 => { c with stmaxrep := k }
  | 0x024 => { c with staw := k }
  | 0x025 => { c with ststream := k }
  | 0x028 => { c with stprobes := k }
  | 0x029 => { c with sthits := k }
  | 0x02A => { c with stmisses := k }
  | 0x02B => { c with stforced := k }
  | 0x02C => { c with ststale := k }
  | 0x040 => { c with utvec := k }
  | 0x041 => { c with uepc := k }
  | 0x042 => { c with ucause := k }
  | 0x043 => { c with utgrp := k }
  | 0x044 => { c with ufei := k }
  | 0x045 => { c with utval := k }
  | 0x100 => { c with status := k }
  | 0x101 => { c with tvec := k }
  | 0x102 => { c with tepc := k }
  | 0x103 => { c with tcause := k }
  | 0x104 => { c with tval := k }
  | 0x105 => { c with tgrp := k }
  | 0x106 => { c with fei := k }
  | 0x107 => { c with tdeleg := k }
  | 0x109 => { c with ptbase := k }
  | _ => c

/-! ## Core CSRs (R202) -/

/-- The harts of a core. -/
def State.hartsOf (s : State) (c : BitVec 7) : List Hart := (List.range 4).map fun k => s.place (c ++ BitVec.ofNat 2 k)

/-- WSTAT.gated and WSTAT.sleeping. -/
def sleepBits (l : List Hart) : Word :=
  (List.range 4).foldl (fun w k =>
    match l[k]? with
    | some h =>
      match h.sleep with
      | some z => w ||| (1 <<< k) ||| (if z.clockGated then 1 <<< (4 + k) else 0)
      | none => w
    | none => w) 0

/-- A core CSR's value. -/
def State.readCore (s : State) (n : Nat) : Word :=
  let k := s.core
  match n with
  | 0x200 => k.wgate
  | 0x201 => k.wpower
  | 0x202 => k.wreport
  | 0x203 => zext (k.reports ++ k.powergates ++ (0 : BitVec 8)) ||| sleepBits (s.hartsOf (coreOf s.hart.id))
  | 0x204 => k.cerr
  | _ => 0

/-- What a read of a core CSR clears. -/
def State.clearCore (s : State) (n : Nat) : State :=
  s.onCore (coreOf s.hart.id) fun k =>
    match n with
    | 0x203 => { k with reports := 0, powergates := 0 }
    | 0x204 => { k with cerr := setField k.cerr 56 (0 : BitVec 6) }
    | _ => k

/-- The bits of a core CSR that are RW. -/
def coreMask (n : Nat) : Word :=
  match n with
  | 0x200 => 0xFFFFFFFF
  | 0x201 => 0xFFFFFFFF
  | 0x202 => 0xFFFFFFFFFFFF
  | _ => 0

/-- A core CSR written. -/
def State.writeCore (s : State) (n : Nat) (v : Word) : State :=
  s.onCore (coreOf s.hart.id) fun k =>
    match n with
    | 0x200 => { k with wgate := v &&& coreMask n }
    | 0x201 => { k with wpower := v &&& coreMask n }
    | 0x202 => { k with wreport := v &&& coreMask n }
    | 0x204 => { k with cerr := k.cerr &&& ~~~(v &&& 0xC000000000000000) }
    | _ => k

/-! ## Package CSRs -/

/-- The stack and first region that ACSEL selects (R337). -/
def PackageCsrs.acStack (p : PackageCsrs) : BitVec 4 := field p.acsel 32 4

/-- The counters of a region: brim in the high byte, crown in the low byte. -/
def regionWord (l : List (Nat × BitVec 8 × BitVec 8)) (r : Nat) : BitVec 16 :=
  match l.find? fun e => decide (e.1 = r) with
  | some e => e.2.2 ++ e.2.1
  | none => 0

/-- ACDATA (R337). -/
def State.acdata (s : State) : Word :=
  let l := (s.stackAt s.pkg.acStack).access
  let r := (field s.pkg.acsel 0 20).toNat
  let w (i : Nat) : BitVec 16 := regionWord l ((r + i) % 2 ^ 20)
  w 3 ++ w 2 ++ w 1 ++ w 0

/-- What a read of ACDATA does (R337). -/
def State.acdataStep (s : State) : State :=
  let r := (field s.pkg.acsel 0 20).toNat
  let s1 := if bit s.pkg.acsel 63 then
      s.onStack s.pkg.acStack fun t =>
        { t with access := t.access.filter fun e => !((List.range 4).any fun i => decide (e.1 = (r + i) % 2 ^ 20)) }
    else s
  { s1 with pkg := { s1.pkg with acsel := setField s1.pkg.acsel 0 (BitVec.ofNat 20 (r + 4)) } }

/-- The counter that STCSEL selects (R364). -/
def State.stcdata (s : State) : Word :=
  (s.stackAt (field s.pkg.stcsel 0 4)).counters.toList.getD (field s.pkg.stcsel 4 3).toNat 0

/-- What a read of STCDATA clears (R364). -/
def State.stcdataStep (s : State) : State :=
  if bit s.pkg.stcsel 63 then
    s.onStack (field s.pkg.stcsel 0 4) fun t =>
      { t with counters := t.counters.setIfInBounds (field s.pkg.stcsel 4 3).toNat 0 }
  else s

/-- A package CSR's value. -/
def State.readPkg (s : State) (n : Nat) : Word :=
  let p := s.pkg
  match n with
  | 0x300 => p.fbbase
  | 0x301 => p.fbsize
  | 0x302 => p.fbhead
  | 0x303 => p.fbtail
  | 0x304 => (if p.fbovf then 1 <<< 63 else 0) ||| zext (BitVec.ofNat 32 s.heldRecords)
  | 0x305 => p.pkgid
  | 0x310 => p.fstarve
  | 0x311 => p.spbase
  | 0x312 => p.spsize
  | 0x313 => zext (p.refusals ++ p.preemptions ++ (0 : BitVec 9) ++ BitVec.ofNat 7 s.ctl.farms.length)
  | 0x320 => p.acsel
  | 0x321 => s.acdata
  | 0x322 => zext ((s.stackAt p.acStack).deferrals ++ (s.stackAt p.acStack).ratioChanges ++ (0 : BitVec 16))
  | 0x323 => p.bsave
  | 0x330 => p.stabase
  | 0x331 => p.stalimit
  | 0x332 => p.stcsel
  | 0x333 => s.stcdata
  | 0x340 => p.pwrcap
  | 0x341 => zext (p.watts ++ p.temperature ++ p.throttles ++ p.withheldCrown ++ p.withheldBrim)
  | 0x350 => p.fabcoord
  | 0x351 => p.podmap
  | 0x352 => p.cgbase
  | 0x353 => p.ctimeout
  | 0x354 => zext (p.spinelUp ++ p.ualinkX2 ++ p.ualinkUp)
  | _ => 0

/-- What a read of a package CSR does beside answering. -/
def State.clearPkg (s : State) (n : Nat) : State :=
  match n with
  | 0x313 => { s with pkg := { s.pkg with refusals := 0, preemptions := 0 } }
  | 0x321 => s.acdataStep
  | 0x322 => s.onStack s.pkg.acStack fun t => { t with deferrals := 0, ratioChanges := 0 }
  | 0x333 => s.stcdataStep
  | 0x341 => { s with pkg := { s.pkg with throttles := 0 } }
  | _ => s

/-- The bits of a package CSR that are RW. -/
def pkgMask (n : Nat) : Word :=
  match n with
  | 0x300 => 0x000FFFFFFFFFF000
  | 0x301 => 0x1FFFF
  | 0x303 => 0xFFFFFFFFFFFFFFFF
  | 0x310 => 0xFFFFFFFF
  | 0x311 => 0x000FFFFFFFFFF000
  | 0x312 => 0xFFFFFF
  | 0x320 => 0x8000000F000FFFFF
  | 0x323 => 0x00FFFFFF000FFFFF
  | 0x330 => 0x0000000FFFFF0000
  | 0x331 => 0xFFFFF
  | 0x332 => 0x800000000000007F
  | 0x340 => 0xFFF
  | 0x351 => 0x000FFFFFFFFFF000
  | 0x352 => 0x000FFFFFFFFFC000
  | 0x353 => 0xFFFFFFFF
  | _ => 0

/-- The fault buffer holds no record, in the ring or held (R271). -/
def State.ringIdle (s : State) : Bool := decide (s.pkg.fbhead = s.pkg.fbtail) && decide (s.heldRecords = 0)

/-- A permitted value of FBSIZE (R271). -/
def fbsizeOk (v : Word) : Bool :=
  decide (v = 0) || (decide (64 ≤ v.toNat) && decide (v.toNat ≤ 65536) && decide (v.toNat = 2 ^ v.toNat.log2))

/-- No slice is pre-empted (R298, R337). -/
def State.noSlices (s : State) : Bool :=
  s.ctl.spilling.isEmpty && s.ctl.farms.all fun f => f.slices.isEmpty

/-- Every activation-cache entry of every stack dropped (R364). -/
def State.dropEntries (s : State) : State := { s with stack := s.stack.map fun t => { t with dir := [] } }

/-- A package CSR written (R271, R273, R298, R337, R364, R382, R401). -/
def State.writePkg (s : State) (n : Nat) (v : Word) : State :=
  let k := v &&& pkgMask n
  let p := s.pkg
  match n with
  | 0x300 => if s.ringIdle && (s.dramAt k.toNat).isSome then { s with pkg := { p with fbbase := k } } else s
  | 0x301 => if s.ringIdle && fbsizeOk k then { s with pkg := { p with fbsize := k } } else s
  | 0x303 =>
    if (p.fbtail ≤ v ∧ v ≤ p.fbhead) then
      let t := { s with pkg := { p with fbtail := v } }
      writeHeld t.stalls t
    else s
  | 0x304 => if bit v 63 then { s with pkg := { p with fbovf := false } } else s
  | 0x306 => s.performAll.xinv v
  | 0x310 => { s with pkg := { p with fstarve := k } }
  | 0x311 => if s.noSlices then { s with pkg := { p with spbase := k } } else s
  | 0x312 => if s.noSlices then { s with pkg := { p with spsize := k } } else s
  | 0x320 => { s with pkg := { p with acsel := k } }
  | 0x323 => if s.noSlices then { s with pkg := { p with bsave := k } } else s
  | 0x330 => let t := s.dropEntries; { t with pkg := { p with stabase := k } }
  | 0x331 => let t := s.dropEntries; { t with pkg := { p with stalimit := k } }
  | 0x332 => { s with pkg := { p with stcsel := k } }
  | 0x340 => { s with pkg := { p with pwrcap := BitVec.ofNat 64 (max 1200 (min 3200 k.toNat)) } }
  | 0x351 => { s with pkg := { p with podmap := k } }
  | 0x352 => { s with pkg := { p with cgbase := k } }
  | 0x353 => { s with pkg := { p with ctimeout := k } }
  | _ => s

/-! ## Any CSR -/

/-- The cycles that a core was powered since its CYC was last read (R209): a free value, of at least one cycle, and of
fewer than 2⁶². -/
def cyclesPassed (draw : Nat) : Word := BitVec.ofNat 64 (1 + Config.cycleGap draw % (2 ^ 62 - 1))

/-- The value that a CSR holds when an instruction reads it (R113). -/
def State.readCsr (s : State) (n : Nat) : Word :=
  match n with
  | 0x001 => s.hart.vcfgWord
  | 0x002 => BitVec.ofNat 64 s.hart.vmax
  | 0x005 => zext s.hart.id
  | 0x006 => zext (coreOf s.hart.id)
  | 0x007 => zext (homeOf s.hart.id)
  | 0x008 => s.core.cyc + cyclesPassed s.draws
  | n => if n < 0x180 then s.hart.csr.read n else if n < 0x280 then s.readCore n else s.readPkg n

/-- What a read does beside answering: RC fields clear, CYC has advanced. -/
def State.afterRead (s : State) (n : Nat) : State :=
  if n = 8 then
    s.draw.onCore (coreOf s.hart.id) fun k => { k with cyc := k.cyc + cyclesPassed s.draws }
  else if n < 0x180 then s
  else if n < 0x280 then s.clearCore n
  else s.clearPkg n

/-- The RW bits of a CSR, which `csrs` and `csrc` touch (R111). -/
def csrMask (n : Nat) : Word := if n < 0x180 then hartMask n else if n < 0x280 then coreMask n else pkgMask n

/-- A CSR written under its access codes. -/
def State.writeCsr (s : State) (n : Nat) (v : Word) : State :=
  if n < 0x180 then s.onCsr fun c => c.write s.hart.vmax n v
  else if n < 0x280 then s.writeCore n v
  else s.writePkg n v

/-! ## The instructions (R111, R113) -/

/-- `csrr` of a CSR may read: of FFX once no convoy is in flight, of FPCTL once no crown convoy is (R26, R90). -/
def Hart.csrReadable (h : Hart) (n : Nat) : Bool :=
  if n = 0x003 then h.still else if n = 0 then h.convoys.isEmpty else true

/-- A write of XINV drops a held leaf that translates an address (R268). -/
def State.xinvConcerns (s : State) (v va : Word) : Bool :=
  let drops (l : List TlbEntry) : Bool :=
    l.any fun t => xinvDrops v t && decide (t.base.toNat ≤ va.toNat) && decide (va.toNat < t.base.toNat + t.size)
  bit v 63 || (s.cores.toList.any fun k => drops k.tlb) || s.stack.toList.any fun k => drops k.tlb

/-- An access that was translated with a leaf that a write of XINV drops is not performed (R268): a request to another
package has no answer yet, or a store waits for a load before it. -/
def State.xinvBusy (s : State) (v : Word) : Bool :=
  (s.remote.any fun r => decide (r.status = .sent) && s.xinvConcerns v r.va) || s.storesHeld (s.xinvConcerns v)

/-- `csrw` may be performed: no convoy is in flight (R111), and before a write of XINV every access that it concerns has
been performed (R268). -/
def State.csrWritable (s : State) (csr : BitVec 11) (a : BitVec 5) : Bool :=
  s.hart.still && !(decide (csr = 0x306) && s.xinvBusy (s.x a))

/-- The read part of a CSR instruction: rd and the side effect of the read. -/
def State.readInto (t : State) (d : BitVec 5) (n : Nat) (v : Word) : State := (t.afterRead n).setX d v

/-- The read part of a form that writes: with rd = x0 it does not read. -/
def State.readUnlessX0 (t : State) (d : BitVec 5) (n : Nat) (v : Word) : State := if d = 0 then t else t.readInto d n v

/-- A CSR instruction names a CSR that its mode may name (R43, R112). -/
def State.named (s : State) (csr : BitVec 11) (go : State) : State :=
  if csrAllowed s.hart.mode csr then go else s.refuse .illegal s.hart.pc

/-- `csrr` performed (R111). -/
def csrrNow (d : BitVec 5) (csr : BitVec 11) (s : State) : State :=
  s.complete 4 fun t => t.readInto d csr.toNat (s.readCsr csr.toNat)

/-- A CSR whose read is an event of its own. -/
def readIsEvent (n : Nat) : Bool := [0x203, 0x204, 0x313, 0x321, 0x322, 0x333, 0x341].contains n

/-- `csrr` (R111): a read waits while waits are left open only where its event can be named. -/
def execCsrr (d : BitVec 5) (csr : BitVec 11) (s : State) : Host.Outcome State Fault Refusal :=
  .next (s.named csr
    (if s.lag && !readIsEvent csr.toNat && s.hart.csrReadable csr.toNat then
      if s.hart.busyX [d] then s else csrrNow d csr s
    else s.start (.csrr d csr) [d] (s.hart.csrReadable csr.toNat) (csrrNow d csr s)))

/-- `csrw` performed (R111). -/
def csrwNow (d : BitVec 5) (csr : BitVec 11) (a : BitVec 5) (s : State) : State :=
  s.complete 4 fun t => (t.readUnlessX0 d csr.toNat (s.readCsr csr.toNat)).writeCsr csr.toNat (s.x a)

/-- `csrs` performed (R111). -/
def csrsNow (d : BitVec 5) (csr : BitVec 11) (a : BitVec 5) (s : State) : State :=
  s.complete 4 fun t =>
    let u := t.readUnlessX0 d csr.toNat (s.readCsr csr.toNat)
    let m := csrMask csr.toNat
    if a = 0 ∨ m = 0 then u else u.writeCsr csr.toNat ((s.readCsr csr.toNat ||| s.x a) &&& m)

/-- `csrc` performed (R111). -/
def csrcNow (d : BitVec 5) (csr : BitVec 11) (a : BitVec 5) (s : State) : State :=
  s.complete 4 fun t =>
    let u := t.readUnlessX0 d csr.toNat (s.readCsr csr.toNat)
    let m := csrMask csr.toNat
    if a = 0 ∨ m = 0 then u else u.writeCsr csr.toNat (s.readCsr csr.toNat &&& ~~~(s.x a) &&& m)

/-- `csrw` (R111). -/
def execCsrw (d : BitVec 5) (csr : BitVec 11) (a : BitVec 5) (s : State) : Host.Outcome State Fault Refusal :=
  .next (s.named csr (s.start (.csrw d csr a) [d, a] (s.csrWritable csr a) (csrwNow d csr a s)))

/-- `csrs` (R111). -/
def execCsrs (d : BitVec 5) (csr : BitVec 11) (a : BitVec 5) (s : State) : Host.Outcome State Fault Refusal :=
  .next (s.named csr (s.start (.csrs d csr a) [d, a] s.hart.still (csrsNow d csr a s)))

/-- `csrc` (R111). -/
def execCsrc (d : BitVec 5) (csr : BitVec 11) (a : BitVec 5) (s : State) : Host.Outcome State Fault Refusal :=
  .next (s.named csr (s.start (.csrc d csr a) [d, a] s.hart.still (csrcNow d csr a s)))

end Sys2Proof.Machine
end

