-- ==== Sys2Proof/Machine/Farm.lean ====
section
/-! DEFINITION. Farm.lean: the farm controller's own accesses, farm records, `launch`, acceptance and dependence words
(R277 to R284). -/

namespace Sys2Proof.Machine

/-! ## The controller's accesses (R280, R284, R290, R340) -/

/-- Why the controller cannot access a word. -/
inductive CStop where
  | invalid (level : Nat)
  /-- The page is being migrated. -/
  | wait
  | other
  deriving DecidableEq, Repr

/-- A and D set in a leaf in memory. -/
def State.markLeaf (s : State) (ea : Nat) (write : Bool) : State :=
  let want : Word := if write then 0xC0 else 0x40
  if s.pte ea &&& want = want then s else s.writeLoc ea (bytesOf (s.pte ea ||| want) 8)

/-- The DRAM location that an address names for the controller, which walks afresh each time. -/
def State.ctlReach (s : State) (ptbase : Word) (mode : Mode) (write : Bool) (va : Word) : Except CStop Nat × State :=
  if !canonical va || inLocal va then (.error .other, s)
  else if s.migrating va then (.error .wait, s)
  else
    match (s.walkFrom (fun _ => none) va 4 ((field ptbase 12 40).toNat * 4096) ⟨[], []⟩).1 with
    | .miss (.invalid lvl) => (.error (.invalid lvl), s)
    | .miss (.badEntry ea) => (.error .other, s.reportEntry ea none)
    | .miss _ => (.error .other, s)
    | .leaf e ea size =>
      if !allowed mode ⟨true, write, false⟩ e || decide (field e 14 2 = 2) then (.error .other, s)
      else
        match dramLoc ((frameOf e + va.toNat % size) % 2 ^ 42) with
        | some l => (.ok l, s.markLeaf ea write)
        | none => (.error .other, s)

/-- `n` bytes that the controller reads; they lie in one aligned block of at most 64 bytes. -/
def State.ctlRead (s : State) (ptbase : Word) (mode : Mode) (va : Word) (n : Nat) : Except CStop (List Byte) × State :=
  match s.ctlReach ptbase mode false va with
  | (.error e, t) => (.error e, t)
  | (.ok l, t) => if t.readFails l n then (.error .other, t.reportErrors none l n) else (.ok (t.readLoc l n), t)

/-- `k` blocks of 16 bytes from an address on. -/
def State.ctlBlocks (ptbase : Word) (mode : Mode) : Nat → Word → State → Except CStop (List Byte) × State
  | 0, _, s => (.ok [], s)
  | k + 1, va, s =>
    match s.ctlRead ptbase mode va 16 with
    | (.error e, t) => (.error e, t)
    | (.ok d, t) =>
      match State.ctlBlocks ptbase mode k (va + 16) t with
      | (.error e, u) => (.error e, u)
      | (.ok ds, u) => (.ok (d ++ ds), u)

/-! ## Farm records (R278, R279) -/

/-- A little-endian word of a record. -/
def wordIn (d : List Byte) (lo : Nat) : Word := wordOf ((d.drop lo).take 8)

/-- The record that 64 bytes hold (R278). -/
def FarmRecord.ofBytes (d : List Byte) : FarmRecord where
  pc := wordIn d 0
  args := wordIn d 8
  link := wordIn d 16
  completion := wordIn d 24
  dep0 := wordIn d 32
  dep1 := wordIn d 40
  gen0 := low32 (wordOf ((d.drop 48).take 4))
  gen1 := low32 (wordOf ((d.drop 52).take 4))
  control := wordIn d 56

/-- S, the strip count. -/
def FarmRecord.strips (r : FarmRecord) : Nat := (field r.control 0 22).toNat

/-- H, the harts. -/
def FarmRecord.wanted (r : FarmRecord) : Nat := (field r.control 22 10).toNat

/-- The stack mask. -/
def FarmRecord.mask (r : FarmRecord) : BitVec 16 := field r.control 32 16

/-- Bytes of scratchpad on each core. -/
def FarmRecord.scratch (r : FarmRecord) : Nat := (field r.control 48 10).toNat * 4096

/-- The record's priority. -/
def FarmRecord.priority (r : FarmRecord) : BitVec 2 := field r.control 58 2

/-- The stacks of the mask, ascending. -/
def FarmRecord.stacks (r : FarmRecord) : List Nat := bitList r.mask 16

/-- An address field that is 0 for none. -/
def wordAddressOk (a : Word) : Bool := decide (a = 0) || (canonical a && decide (a.toNat % 16 = 0))

/-- A field breaks its requirement, the mode is 3, or a cluster-placed record has H above 16 (R278, R279). -/
def FarmRecord.malformed (r : FarmRecord) : Bool :=
  !canonical r.pc || bit r.pc 0 || !canonical r.args || decide (r.args.toNat % 16 ≠ 0) || !canonical r.link ||
    decide (r.link.toNat % 8 ≠ 0) || !wordAddressOk r.completion || !wordAddressOk r.dep0 || !wordAddressOk r.dep1 ||
    decide (r.wanted = 0) || decide (512 < r.wanted) || decide (r.mask = 0) || decide (768 * 4096 < r.scratch) ||
    decide (r.kind = 3) || (r.clustered && decide (16 < r.wanted))

/-- A RESIDENT or cluster-placed record whose H exceeds 32 for each stack of its mask (R279). On an empty die every
other well-formed record can be given its harts and scratchpad. -/
def FarmRecord.unsatisfiable (r : FarmRecord) : Bool := r.together && decide (32 * r.stacks.length < r.wanted)

/-- The first strip of the run of strips at home in mask stack `i` of `k` (R288). -/
def homeStart (strips k i : Nat) : Nat := (i * strips + k - 1) / k

/-- The next strips of a farm at its acceptance: one run of strips for each mask stack in AFFINE, else one. -/
def FarmRecord.firstStrips (r : FarmRecord) : List Nat :=
  if r.kind = 1 then (List.range r.stacks.length).map fun i => homeStart r.strips r.stacks.length i else [0]

/-! ## Acceptance (R279, R281, R282, R297) -/

/-- The refusals of the controller (R281). -/
def refusedMalformed : Word := 0xFFFFFFFFFFFFFFFF
def refusedFull : Word := 0xFFFFFFFFFFFFFFFE
def refusedUnsatisfiable : Word := 0xFFFFFFFFFFFFFFFD

/-- The lowest free entry of the controller's table. -/
def Controller.freeEntry (c : Controller) : Option (BitVec 6) :=
  ((List.range 64).find? fun i => !c.farms.any fun f => decide (f.entry.toNat = i)).map (BitVec.ofNat 6)

/-- FARMID of the farm accepted next in an entry (R297). -/
def Controller.nextFarmid (c : Controller) (e : BitVec 6) : Word := zext (BitVec.ofNat 26 c.accepted ++ e)

/-- The farm of an accepted launch. -/
def Launch.farm (l : Launch) (r : FarmRecord) (block : List Byte) (e : BitVec 6) (c : Controller) : Farm where
  entry := e
  farmid := c.nextFarmid e
  order := c.accepted
  record := r
  block := block
  ptbase := l.ptbase
  tvec := l.tvec
  tdeleg := l.tdeleg
  mode := l.mode
  phase := if r.dep0 = 0 ∧ r.dep1 = 0 then .runnable else .waiting
  priority := r.priority
  nexts := r.firstStrips
  started := 0
  retired := 0
  barrier := 0
  arrived := 0
  slices := []
  ctxid := none
  offset := none
  savedSlots := none
  failing := none

/-- The controller judges a launch: the outcome, and the controller with the farm accepted (R279, R281). -/
def Controller.judge (c : Controller) (l : Launch) : Word × Controller :=
  match l.record with
  | none => (refusedMalformed, c)
  | some (r, block) =>
    if r.malformed then (refusedMalformed, c)
    else if r.unsatisfiable then (refusedUnsatisfiable, c)
    else
      match c.freeEntry with
      | none => (refusedFull, c)
      | some e => (c.nextFarmid e, { c with farms := c.farms ++ [l.farm r block e c], accepted := c.accepted + 1 })

/-- The launching hart completes with the outcome. -/
def State.launched (s : State) (d : BitVec 5) (v : Word) : State :=
  match s.hart.wait with
  | some (.launch _ _) =>
    if s.hart.live then (s.onHart fun h => { h with wait := none }).fallTo (s.nextPc 4) fun t => t.setX d v else s
  | _ => s

/-- The oldest launch judged: xd, and the ACCEPT message (R279, R281). The tag of the ACCEPT of a `launch` is a free
value. -/
def State.judgeNext (s : State) : State :=
  match s.ctl.launches with
  | [] => s
  | l :: ls =>
    let r := s.ctl.judge l
    let t := { s with ctl := { r.2 with launches := ls } }
    match l.hart with
    | some (h, d) =>
      ((withHart h (fun u => u.launched d r.1) t).draw).emit (.accept (BitVec.ofNat 32 (Config.choice t.draws)) r.1)
    | none => t.emit (.accept l.tag r.1)

/-- Every launch judged, in order. -/
def State.judgeAll (s : State) : State := upTo s.ctl.launches.length s fun t _ => t.judgeNext

/-! ## launch (R281, R283) -/

/-- The launch of the current hart handed to the controller; a bad back edge goes before it (R104). -/
def State.handOff (s : State) (d a : BitVec 5) (rb : Option (FarmRecord × List Byte)) : State :=
  let c := s.hart.csr
  let l : Launch := ⟨some (s.hart.id, d), 0, rb, c.ptbase, c.tvec, c.tdeleg, s.hart.mode⟩
  let t := ({ s with ctl := { s.ctl with launches := s.ctl.launches ++ [l] } }).await (.launch d a)
  s.goingOn 4 (if t.lag then t else t.judgeAll)

/-- The bytes of a reached part of an argument block: local bytes 16 at a time, since a striped page changes stack
every 1,024 bytes (R259). -/
def State.readBlockPart (s : State) (p : Piece) : Except Stop (List Byte × Bool) × State :=
  match p.place, p.page with
  | .here _, some t =>
    let s1 := s.markPiece .scalar false p
    let parts := (List.range (p.len / 16)).filterMap fun i =>
      match s1.placeOf .scalar t (p.va + BitVec.ofNat 64 (16 * i)) with
      | .ok (.here l) => some l
      | _ => none
    let s2 := ((parts.map fun l => l / 32 * 32).eraseDups).foldl (fun s l => s.countWord true l) s1
    (.ok (parts.flatMap fun l => s1.readLoc l 16, parts.any fun l => s1.readFails l 16),
      parts.foldl (fun s l => if s.readFails l 16 then s.reportErrors (some s.hart.id) l 16 else s) s2)
  | _, _ => s.readPiece .scalar ⟨0, 0, 0⟩ p

/-- The bytes of every part of an argument block. -/
def State.readBlock : List Piece → State → Except Stop (List Byte × Bool) × State
  | [], s => (.ok ([], false), s)
  | p :: ps, s =>
    match s.readBlockPart p with
    | (.error e, t) => (.error e, t)
    | (.ok (d, b), t) =>
      match State.readBlock ps t with
      | (.error e, u) => (.error e, u)
      | (.ok (d2, b2), u) => (.ok (d ++ d2, b || b2), u)

/-- The first address of a finding: the page that is invalid, else the block. -/
def Stop.faultAddress (e : Stop) (va : Word) : Word :=
  match e with
  | .invalid _ a => a
  | _ => va

/-- `launch` once its record is read (R281, steps 3 and 4). -/
def State.launchRecord (s : State) (d a : BitVec 5) (r : FarmRecord) : State :=
  if r.malformed then s.handOff d a none
  else
    match s.reachAll .scalar ⟨true, false, false⟩ r.args 128 with
    | (.error e, t) => s.haltedAs (t.noteStop e) (some (.launch d a)) (t.haltOf (e.faultAddress r.args) 1 e)
    | (.ok ps, t) =>
      match State.readBlock ps t with
      | (.error e, u) => s.haltedAs u (some (.launch d a)) (u.haltOf r.args 1 e)
      | (.ok (_, true), u) => s.halted u (.trap .access r.args)
      | (.ok (b, false), u) => u.handOff d a (some (r, b))

/-- The requests of a scalar read of a piece counted (R336). -/
def State.countPiece (s : State) (p : Piece) : State :=
  match p.place with
  | .here l => s.countAccess true l p.len
  | .away _ => s

/-- `launch` performed (R281). -/
def launchNow (d a : BitVec 5) (s : State) : State :=
  match s.scalarReach false ⟨true, false, false⟩ false (s.x a) 64 64 with
  | (.error h, t) => s.haltedAs t (some (.launch d a)) h
  | (.ok p, t) =>
    t.afterRelease 7 fun u =>
      match u.readPiece .scalar ⟨0, 0, 0⟩ p with
      | (.error e, v) => u.haltedAs v (some (.launch d a)) (v.haltOf (s.x a) 1 e)
      | (.ok (_, true), v) => u.halted ((v.countPiece p).reportPiece p) (.trap .access (s.x a))
      | (.ok (b, false), v) => (v.countPiece p).launchRecord d a (FarmRecord.ofBytes b)

/-- `launch` may go on: no convoy is in flight, and, as a release of all three agents at package scope, their earlier
stores are performed (R157, R281, R283). -/
def State.launchReady (s : State) : Bool := s.hart.still && s.released 7 && !s.brimAway

/-- `launch` (R281): the check of its record goes before its wait. -/
def execLaunch (d a : BitVec 5) (s : State) : Host.Outcome State Fault Refusal :=
  .next (if s.hart.busyX [d, a] then s
    else
      match s.scalarReach false ⟨true, false, false⟩ false (s.x a) 64 64 with
      | (.error h, t) => s.haltedAs t (some (.launch d a)) h
      | (.ok _, _) => s.start (.launch d a) [d, a] s.launchReady (launchNow d a s))

/-- The event LAUNCH_HANDOFF (R281): a waiting `launch` that may go on. -/
def State.handoff (s : State) : State :=
  match s.hart.wait with
  | some (.launch d a) =>
    if s.hart.live && s.launchReady && !s.ctl.launches.any (fun l => l.hart == some (s.hart.id, d)) then
      launchNow d a (s.onHart fun h => { h with wait := none })
    else s
  | _ => s

/-- LAUNCH_HANDOFF (R281). -/
def execLaunchHandoff (h : HartId) (s : State) : Host.Outcome State Fault Refusal := .next (withHart h State.handoff s)

/-- LAUNCH_ACCEPT (R279): the oldest launch handed over is judged. -/
def execLaunchAccept (s : State) : Host.Outcome State Fault Refusal := .next s.judgeNext

/-! ## Dependences (R284) -/

/-- How a dependence word stands. -/
inductive Dep where
  | reached
  | notYet
  | stall (va : Word) (level : Nat)
  | fail
  deriving DecidableEq, Repr

/-- A dependence word read: its generation has reached the expected one when their difference is below 2^31. -/
def State.depOf (s : State) (f : Farm) (va : Word) (e : BitVec 32) : Dep × State :=
  if va = 0 then (.reached, s)
  else
    match s.ctlRead f.ptbase f.mode va 16 with
    | (.error (.invalid lvl), t) => (.stall va lvl, t)
    | (.error .wait, _) => (.notYet, s)
    | (.error .other, t) => (.fail, t)
    | (.ok d, t) => (if ((Arrival.ofBytes d).generation - e).toNat < 2 ^ 31 then .reached else .notYet, t)

/-- The fault record of the controller (R270, R284, R290). -/
def Farm.faultInfo (f : Farm) (va : Word) (access level : Nat) : FaultInfo :=
  ⟨va, 0, 0xFFFF, 4, access, noElement, 0, level, 0xFF, f.farmid, f.ptbase⟩

/-- A slice of a farm has failed; the first cause stands (R300). -/
def State.markFailing (s : State) (e : BitVec 6) (cause : BitVec 12) (subject : BitVec 32) : State :=
  s.onFarm e fun f => if f.failing.isSome then f else { f with failing := some (cause, subject) }

/-- What a finding about a dependence word does; `next` follows when it has been reached. -/
def State.onDep (f : Farm) (r : Dep × State) (next : State → State) : State :=
  match r.1 with
  | .reached => next r.2
  | .notYet => r.2
  | .stall va lvl => r.2.stall (.farm f.entry) (f.faultInfo va 1 lvl)
  | .fail => r.2.markFailing f.entry 4 noSubject

/-- A waiting farm whose dependence words have reached their generations becomes runnable (R284). Word 1 is read once word 0
has been found reached: the spec gives no order (assumption log 109). -/
def State.dependence (s : State) (e : BitVec 6) : State :=
  match s.farmAt e with
  | some f =>
    if f.phase = .waiting ∧ f.failing = none ∧ s.stalled (.farm e) = false then
      State.onDep f (s.depOf f f.record.dep0 f.record.gen0) fun t =>
        State.onDep f (t.depOf f f.record.dep1 f.record.gen1) fun u => u.onFarm e fun g => { g with phase := .runnable }
    else s
  | none => s

/-- DEPENDENCE_REACHED (R284). -/
def execDependenceReached (f : BitVec 6) (s : State) : Host.Outcome State Fault Refusal := .next (s.dependence f)

end Sys2Proof.Machine
end

