-- ==== Sys2Proof/Machine/Pmig.lean ====
section
/-! DEFINITION. Pmig.lean: page migration (R338). -/

namespace Sys2Proof.Machine

/-- The bytes of a frame copied to another, with the marks of bad words, which are reported (R389); the old frame keeps its
own. -/
def State.copyFrame (s0 : State) (src dst n : Nat) : State :=
  let s := s0.reportErrors none src n
  let within (a u : Nat) : Bool := decide (a ≤ u) && decide (u < a + n)
  let marked := (s.badUnits ++ s.poisoned).filter (within src)
  { s with
    mem := copyCells s.mem src dst n
    badUnits := s.badUnits.filter fun u => !within dst u
    poisoned := (s.poisoned.filter fun u => !within dst u) ++ (marked.map fun u => dst + (u - src)).eraseDups }

/-- The access counters of the regions that a frame touches set to zero (R336, R338). -/
def State.zeroCounters (s : State) (l n : Nat) : State :=
  s.onStack (BitVec.ofNat 4 (stackOf l)) fun t =>
    { t with access := t.access.filter fun e =>
        !(decide (l % 0x1000000000 / 65536 ≤ e.1) && decide (e.1 ≤ (l % 0x1000000000 + n - 1) / 65536)) }

/-- An entry with another homed frame (R260, R338). -/
def withFrame (leaf target : Word) : Word :=
  setField (setField leaf 16 (field target 12 40)) 10 (field target 36 4)

/-- The translations of a page dropped in every page sorter, for every ASID (R268, R338). -/
def State.dropPage (s : State) (va : Word) : State := s.xinv (0x4000000000000000 ||| zext (field va 12 45))

/-- A page that is being migrated holds an address. -/
def Migration.holds (m : Migration) (va : Word) : Bool :=
  decide (m.base.toNat ≤ va.toNat) && decide (va.toNat < m.base.toNat + m.size)

/-- The address that a wait watches in memory. -/
def Watch.address (w : Watch) : Option Word :=
  match w with
  | .gen a _ => some a
  | .ne a _ => some a
  | _ => none

/-- A sleep that watches a word of the page, moved with the frame: it watches the word of the new frame, and a check that was
due stays so (R199, R338). `s` is the state before, `t` the state with the new words watched. -/
def Sleep.moved (z : Sleep) (m : Migration) (src dst : Nat) (s t : State) : Sleep :=
  if z.watch.address.any m.holds && decide (src ≤ z.loc) && decide (z.loc < src + m.size) then
    let l := z.loc - src + dst
    { z with loc := l, seen := if z.seen = .writes (s.writesTo z.loc) then .writes (t.writesTo l) else .due }
  else z

/-- The sleepers that watch a word of a migrated page watch the word of the new frame (R199, R338). -/
def State.moveWatches (s : State) (m : Migration) (src dst : Nat) : State :=
  let words := (s.watched.filter fun w => decide (src ≤ w.1) && decide (w.1 < src + m.size)).map fun w => w.1 - src + dst
  let t := words.foldl (fun t l => t.watching (.ne 0 0) l) s
  s.harts.foldl (fun u h => withHart h.id (fun v => v.onHart fun k =>
    { k with sleep := k.sleep.map fun z => z.moved m src dst s t }) u) t

/-- The copy of a migration finishes: the bytes, the entry, the counters, and the held translations (R338). -/
def State.finishMigration (s0 : State) (m : Migration) : State :=
  let s := s0.performAll
  let src := (s.dramAt (frameOf m.leaf)).getD 0
  let dst := (s.dramAt m.target.toNat).getD 0
  let s1 := s.copyFrame src dst m.size
  let held := decide (s1.pte m.ea = m.leaf)
  let s2 := if held then s1.writeLoc m.ea (bytesOf (withFrame m.leaf m.target) 8) else s1
  let s3 := (if held then s2.moveWatches m src dst else s2).zeroCounters dst m.size
  let s4 := { s3 with migrations := s3.migrations.filter fun q => decide (q.hart ≠ m.hart) }.endWaiting
  if held then s4.complete 4 fun t => t else s4.refuse .access m.va

/-- A store to the page waits for a load before it: the copy waits for the store (R163, R338). -/
def State.migrationBusy (s : State) (m : Migration) : Bool := s.storesHeld m.holds

/-- The migration that the current hart waits for, finished. -/
def State.pmigDone (s : State) : State :=
  match s.migrations.find? fun m => decide (m.hart = s.hart.id) with
  | some m => if s.migrationBusy m then s else (s.onHart fun h => { h with wait := none }).finishMigration m
  | none => s

/-- What a walk without replay finds for `pmig`: the entry, its location and the size of the page. It sees the hart's own
posted stores (R266). -/
def State.pmigWalk (s : State) (xp : Word) : Option (Word × Nat × Nat) × State :=
  match (if s.walkReadsStore (s.space .scalar) xp then s.performStores else s).walk (s.space .scalar) true xp with
  | (.ok t, s1) => (some (s1.pte t.ea, t.ea, t.size), s1)
  | (.error (.badEntry ea), s1) => (none, s1.reportEntry ea (some s1.hart.id))
  | (.error _, s1) => (none, s1)

/-- The leaf can be migrated: homed, in DRAM, below 1 GiB (R338, check 3). -/
def State.migratable (s : State) (leaf : Word) (size : Nat) : Bool :=
  field leaf 14 2 == 0 && decide (size < 0x40000000) && (s.dramAt (frameOf leaf)).isSome

/-- The target is homed-view DRAM of this package, aligned to the page (R338, check 4). -/
def State.targetOk (s : State) (xk : Word) (size : Nat) : Bool :=
  (match s.localPa xk.toNat with
   | some p => decide (p < dramBytes)
   | none => false) && decide (xk.toNat % size = 0)

/-- `pmig` performed (R338): its checks, and the migration begun; it ends at once unless waits are left open. -/
def pmigNow (a b : BitVec 5) (s : State) : State :=
  let xp := s.x a
  let xk := s.x b
  if s.hart.mode = .user then s.refuse .illegal s.hart.pc
  else if !canonical xp || inLocal xp then s.refuse .access xp
  else if s.migrating xp || (s.hart.loading && s.walkReadsStore (s.space .scalar) xp) then s.await (.pmig a b)
  else
    match s.pmigWalk xp with
    | (none, t) => s.stopAt t (s.scalarTrap .access xp)
    | (some (leaf, ea, size), t) =>
      if !t.migratable leaf size then s.stopAt t (s.scalarTrap .access xp)
      else if !t.targetOk xk size then s.stopAt t (s.scalarTrap .access xk)
      else
        s.goingOn 4
          (if t.dramAt (frameOf leaf) = t.dramAt xk.toNat then t.fallTo (s.nextPc 4) fun u => u
           else
            let m : Migration := ⟨s.hart.id, xp, BitVec.ofNat 64 (xp.toNat / size * size), size, ea, leaf, xk⟩
            let u := { t.dropPage xp with migrations := t.migrations ++ [m] }
            if u.lag || u.migrationBusy m then u.await (.pmig a b) else u.finishMigration m)

/-- `pmig` (R338). -/
def execPmig (a b : BitVec 5) (s : State) : Host.Outcome State Fault Refusal :=
  .next (if s.hart.busyX [a, b] then s else pmigNow a b s)

/-- The event PMIG_COPY_DONE (R338). -/
def execPmigCopyDone (h : HartId) (s : State) : Host.Outcome State Fault Refusal := .next (withHart h State.pmigDone s)

end Sys2Proof.Machine
end

