-- ==== Sys2Proof/Machine/Save.lean ====
section
/-! DEFINITION. Save.lean: save slots, what pre-emption writes to them and what resumption reads back (R175, R176, R295 to
R299, R333, R349). -/

namespace Sys2Proof.Machine

/-! ## Bytes by physical address -/

/-- Bytes written from a physical address on, in parts within 1,024 bytes; `k` bounds their number. -/
def State.writePaFrom : Nat → State → Nat → List Byte → State
  | 0, s, _, _ => s
  | k + 1, s, pa, d =>
    if d.isEmpty then s
    else
      let n := 1024 - pa % 1024
      let t := match s.dramAt pa with
        | some l => s.writeLoc l (d.take n)
        | none => s
      State.writePaFrom k t (pa + n) (d.drop n)

/-- Bytes written from a physical address on. -/
def State.writePa (s : State) (pa : Nat) (d : List Byte) : State := State.writePaFrom (d.length / 1024 + 2) s pa d

/-- The parts of `n` bytes from a physical address on, within 1,024 bytes each. -/
def paParts : Nat → Nat → Nat → List (Nat × Nat)
  | 0, _, _ => []
  | k + 1, pa, n =>
    if n = 0 then []
    else
      let m := min n (1024 - pa % 1024)
      (pa, m) :: paParts k (pa + m) (n - m)

/-- The DRAM parts of `n` bytes from a physical address on; `none` when one lies outside local DRAM. -/
def State.partsAt (s : State) (pa n : Nat) : Option (List (Nat × Nat)) :=
  (paParts (n / 1024 + 2) pa n).mapM fun p => (s.dramAt p.1).map fun l => (l, p.2)

/-- `n` bytes from a physical address on. -/
def State.readPa (s : State) (pa n : Nat) : List Byte :=
  ((s.partsAt pa n).getD []).flatMap fun p => s.readLoc p.1 p.2

/-- An uncorrectable error lies in `n` bytes from a physical address on. -/
def State.failsPa (s : State) (pa n : Nat) : Bool :=
  ((s.partsAt pa n).getD []).any fun p => s.readFails p.1 p.2

/-- The uncorrectable errors in `n` bytes from a physical address on reported (R389). -/
def State.reportPa (s : State) (pa n : Nat) : State :=
  ((s.partsAt pa n).getD []).foldl (fun t p => t.reportErrors none p.1 p.2) s

/-- Bytes copied between locations, with the marks of bad words, which are reported (R389). -/
def State.copyBytes (s0 : State) (src dst n : Nat) : State :=
  let s := if s0.readFails src n then s0.reportErrors none src n else s0
  let bad := (s.badUnits ++ s.poisoned).filter fun u => decide (u < src + n) && decide (src < u + unitBytes u)
  let t := { s with
    mem := copyCells s.mem src dst n
    badUnits := s.badUnits.filter fun u => !coversUnit u dst n
    poisoned := s.poisoned.filter fun u => !coversUnit u dst n }
  bad.foldl (fun t u => t.poisonLoc (dst + (u - src)) (unitBytes u)) t

/-- `n` bytes moved between a scratchpad and a physical address, part by part. -/
def State.moveBytes (s : State) (out : Bool) (l pa n : Nat) : State :=
  let whole := match s.localPa pa with
    | some p => decide (p + n ≤ dramBytes)
    | none => false
  if whole then
    match s.dramAt pa with
    | some d => if out then s.copyBytes l d n else s.copyBytes d l n
    | none => s
  else
    ((s.partsAt pa n).getD []).foldl (fun (r : State × Nat) p =>
      (if out then r.1.copyBytes r.2 p.1 p.2 else r.1.copyBytes p.1 r.2 p.2, r.2 + p.2)) (s, l) |>.1

/-! ## Slots (R299, R333) -/

/-- Bytes of a hart's context save area, and of its part of a brim save area. -/
def saveBytes : Nat := 144 * 1024
def brimSaveBytes : Nat := 68 * 1024

/-- Bytes of a slice's slot (R299). -/
def slotBytes (harts region : Nat) : Nat := 4096 + saveBytes * harts + region

/-- The slots in use: of pre-empted slices, and of slices being spilled. -/
def Controller.slots (c : Controller) : List (Nat × Nat) :=
  (c.farms.flatMap fun f => f.slices.map fun q => (q.slot, q.slotSize)) ++ c.spilling.map fun p => (p.slot, p.slotSize)

/-- The parts in use of the brim save areas. -/
def Controller.brimSlots (c : Controller) : List (Nat × Nat) :=
  (c.farms.flatMap fun f => f.slices.map fun q => (q.brimSlot, brimSaveBytes * q.harts.length)) ++
    c.spilling.map fun p => (p.brimSlot, brimSaveBytes * p.harts)

/-- `n` bytes from `a` on share no byte with an allocation. -/
def clear (used : List (Nat × Nat)) (a n : Nat) : Bool :=
  used.all fun u => decide (a + n ≤ u.1) || decide (u.1 + u.2 ≤ a)

/-- A place of `n` bytes in units of 4 KiB, free within `size` bytes from `base` on: the device's choice, or, where that
does not fit, the lowest place right after the base or an allocation. -/
def findSlot (used : List (Nat × Nat)) (base size n choice : Nat) : Option Nat :=
  let ok (a : Nat) : Bool := decide (base ≤ a) && decide (a + n ≤ base + size) && clear used a n
  let c := base + choice % (size / 4096 + 1) * 4096
  if ok c then some c else (base :: used.map fun u => (u.1 + u.2 + 4095) / 4096 * 4096).find? ok

/-- A slot of the save pool (R298, R299). -/
def State.poolSlot (s : State) (n : Nat) : Option Nat :=
  let base := s.pkg.spbase.toNat
  match findSlot s.ctl.slots base (s.pkg.spsize.toNat * 4096) n (Config.choice s.draws) with
  | some a => if (s.partsAt a n).isSome then some a else none
  | none => none

/-- A part of a stack's brim save area, as a location (R333, R337). -/
def State.brimPlace (s : State) (stack : BitVec 4) (n : Nat) : Option Nat :=
  let base := cellLoc stack.toNat ((field s.pkg.bsave 32 24).toNat * 4096)
  let size := (field s.pkg.bsave 0 20).toNat * 4096
  if 0x1000000000 < (field s.pkg.bsave 32 24).toNat * 4096 + size then none
  else findSlot s.ctl.brimSlots base size n (Config.choice (s.draws + 1))

/-! ## The context save area (R295) -/

/-- The CSR values that a save area holds. -/
def State.savedCsr (s : State) (h : Hart) (n : Nat) : Word :=
  match n with
  | 0x001 => h.vcfgWord
  | 0x002 => BitVec.ofNat 64 h.vmax
  | 0x005 => zext h.id
  | 0x006 => zext (coreOf h.id)
  | 0x007 => zext (homeOf h.id)
  | 0x008 => (s.cores[(coreOf h.id).toNat]'(coreOf h.id).isLt).cyc
  | n => h.csr.read n

/-- The internal blocks of a save area, whose layout is the device's (R295): offset and bytes. -/
def internalBlocks : List (Nat × Nat) := [(0xA00, 512), (0xC00, 1024)]

/-- The bytes of a wide register's value. -/
def bytesWide {n : Nat} (v : BitVec n) : List Byte := toBytes v.toNat (n / 8)

/-- The pc that a save area holds: the address of the older convoy in flight, if any (R175). -/
def Hart.savedPc (h : Hart) : Word :=
  match h.convoys with
  | c :: _ => c.addr
  | [] => h.pc

/-- The block at 0x100 of a save area: the pc, then, in a layout of the model's own (assumption log 97), a count of the
convoys in flight with the address and the start group of each, from 0x108 on; the 32 progress indices of the crown, at
0x138; and the `gbar` round, at 0x158. -/
def Hart.flightBytes (h : Hart) : List Byte :=
  let slot (i : Nat) : List Byte :=
    match h.convoys[i]? with
    | some c => bytesOf c.addr 8 ++ toBytes c.next 8
    | none => List.replicate 16 0
  bytesOf h.savedPc 8 ++ toBytes h.convoys.length 8 ++ slot 0 ++ slot 1 ++ List.replicate 8 0 ++
    (List.range 32).flatMap (fun r => toBytes (h.progress.getD r 0).toNat 1) ++ toBytes h.round 8

/-- The parts of a save area that are loaded as they stand: offset and bytes. The private window is moved by itself. -/
def State.contextParts (s : State) (h : Hart) : List (Nat × List Byte) :=
  [(0, (List.range 32).flatMap fun r => bytesOf (h.get (BitVec.ofNat 5 r)) 8),
    (0x100, h.flightBytes),
    (0x200, (List.range 128).flatMap fun n => bytesOf (s.savedCsr h n) 8),
    (0x600, (List.range 128).flatMap fun n => bytesOf (s.savedCsr h (0x100 + n)) 8),
    (0x5000, (List.range 24).flatMap fun r => bytesWide (h.mask (BitVec.ofNat 5 r))),
    (0xB000, h.tile.toList.flatMap bytesWide),
    (0x13000, h.v.toList.flatMap bytesWide)]

/-- The bytes of the device's own blocks, free values. -/
def State.internalParts (s : State) (area : Nat) : List (Nat × List Byte) :=
  internalBlocks.map fun b => (area + b.1, tabulate b.2 fun i => Config.internalByte s.draws (b.1 + i))

/-- The private window of a hart, as a location. -/
def windowOf (h : HartId) : Nat := scalarBase (coreOf h).toNat + 16384 * (placeIn h).toNat

/-- The parity errors that the spill engines meet in a hart's register and tile storage reported, each register and each
tile once (R211, R389). They stay with the storage that is restored. -/
def State.reportStorage (s : State) (h : Hart) : State :=
  let regs := (h.badCrown.map fun b => b / (256 * h.count.groups)).eraseDups
  let tiles := (h.badTile.map fun b => 64 + b / 16384).eraseDups
  (regs ++ tiles).foldl (fun t r => t.crownError h.id r) s

/-- A hart's context written to its save area. -/
def State.saveContext (s : State) (h : Hart) (area : Nat) : State :=
  (((s.contextParts h).map fun p => (area + p.1, p.2)).foldl (fun t p => t.writePa p.1 p.2)
    ((s.internalParts area).foldl (fun t p => t.writePa p.1 p.2) (s.reportStorage h))).moveBytes true (windowOf h.id)
      (area + 0x1000) 16384

/-- The last 4 KiB of a hart's part of a brim save area (R333), in a layout of the model's own (assumption log 97): the
poison bits, one byte for each element group; at 0x100 the 32 progress indices; at 0x120 the collected flags; at 0x128 the
number of unfinished convoys, and from 0x130 on the address and the start group of each. -/
def Hart.brimTail (h : Hart) : List Byte :=
  (h.brimPoison.toList.flatMap fun p => toBytes p.toNat 1) ++
    ((List.range 32).flatMap fun r => toBytes (h.progress.getD (32 + r) 0).toNat 1) ++ toBytes h.brimFlags.toNat 8 ++
    toBytes h.brimConvoys.length 8 ++ h.brimConvoys.flatMap fun c => bytesOf c.addr 8 ++ toBytes c.next 8

/-- A parity error in brim register storage reported (R330, R414). -/
def State.reportBrim (s : State) (h : Hart) : State :=
  ((h.badBrim.map fun b => 32 + b / (256 * h.count.groups)).eraseDups).foldl (fun t r =>
    t.report 0x0020 ((homeOf h.id).setWidth 32) [6, BitVec.ofNat 64 r, zext h.id]) s

/-- The 68 KiB of a hart's brim state written to the stack's brim save area (R333). -/
def State.saveBrim (s : State) (h : Hart) (l : Nat) : State :=
  let tail := h.brimTail
  (s.reportBrim h).writeLoc l (h.brim.toList.flatMap bytesWide ++ tail ++ List.replicate (4096 - tail.length) 0)

/-- A vector of wide values that bytes hold. -/
def groupsOf (k : Nat) (d : List Byte) : Vector Group k := Vector.ofFn fun i => BitVec.ofNat 2048 (fieldAt d (256 * i.val) 256)

/-- A hart CSR loaded from a save area: every bit that its register has. -/
def Csrs.load (c : Csrs) (vmax n : Nat) (v : Word) : Csrs :=
  match n with
  | 0x009 => { c with cvret := v }
  | 0x012 => { c with bsum := v &&& 0xFFFF00003FE0FFFF }
  | 0x013 => { c with bwin := v }
  | 0x014 => { c with bseq := v }
  | 0x050 => { c with farmid := v &&& 0xFFFFFFFF }
  | 0x051 => { c with strips := v &&& 0x3FFFFF }
  | 0x108 => { c with csa := v &&& 0x000FFFFFFFFFF000 }
  | n => c.write vmax n v

/-- The shape that a saved VCFG gives; a reserved value leaves the hart's own. -/
def Hart.loadShape (h : Hart) (v : Word) : Hart :=
  match Count.ofCode (field v 0 2), Elem.ofCode (field v 2 3) (field v 5 1) with
  | some c, some e => { h with count := c, elem := e }
  | _, _ => h

/-- An address as pc holds it: bit 0 is always zero (R68). -/
def pcOf (v : Word) : Word := v &&& 0xFFFFFFFFFFFFFFFE

/-- The pc of a resumed hart: its own, or what software wrote to the save area. -/
def Hart.loadPc (h : Hart) (v : Word) : Hart := if v = h.savedPc then h else { h with pc := pcOf v }

/-- Start groups of convoys as a save area holds them, from an offset on. -/
def loadGroups (d : List Byte) (lo : Nat) (l : List Convoy) : List Convoy :=
  l.zipIdx.map fun c => { c.1 with next := fieldAt d (lo + 16 * c.2 + 8) 8 % 64 }

/-- The convoys, progress indices and round that the block at 0x100 holds. A convoy whose address software has changed, or
a count of another number, makes the hart begin at the first address named, from its start group; the rest it dropped. -/
def Hart.loadFlight (h : Hart) (d : List Byte) : Hart :=
  let n := fieldAt d 8 8
  let same := decide (n = h.convoys.length) &&
    h.convoys.zipIdx.all fun c => decide (fieldAt d (16 + 16 * c.2) 8 = c.1.addr.toNat)
  let h1 := { h with
    progress := Vector.ofFn fun r => if r.val < 32 then BitVec.ofNat 6 (fieldAt d (56 + r.val) 1) else h.progress[r]
    round := fieldAt d 88 8 }
  if same then { h1 with convoys := loadGroups d 16 h.convoys }
  else if n = 0 then { h1 with convoys := [] }
  else { h1 with convoys := [], wait := none, pc := pcOf (BitVec.ofNat 64 (fieldAt d 16 8)), reissue := BitVec.ofNat 6 (fieldAt d 24 8) }

/-- The segments of brim registers that were loaded from bad words of a save area are poisoned: the spec does not say what
they are (R330, R333; assumption log 112). -/
def State.loadPoison (s : State) (brim : Nat) (h : Hart) : Hart :=
  { h with brimPoison := Vector.ofFn fun i => (List.range 4).foldl (fun (p : BitVec 4) k =>
      if s.readFails (brim + 256 * i.val + 64 * k) 64 then p ||| (1#4 <<< k) else p) h.brimPoison[i] }

/-- What the last 4 KiB of a brim save area hold; the convoys keep what they captured. -/
def Hart.loadTail (h : Hart) (d : List Byte) : Hart :=
  { h with
    brimPoison := Vector.ofFn fun i => BitVec.ofNat 4 (fieldAt d i.val 1)
    progress := Vector.ofFn fun r => if r.val < 32 then h.progress[r] else BitVec.ofNat 6 (fieldAt d (0x100 + r.val - 32) 1)
    brimFlags := BitVec.ofNat 5 (fieldAt d 0x120 8)
    brimConvoys := loadGroups d 0x130 h.brimConvoys }

/-- A hart's state as its save areas hold it (R295, R296). -/
def State.loadContext (s : State) (h : Hart) (area : Nat) (brim : Nat) : Hart :=
  let x := s.readPa area 256
  let user := s.readPa (area + 0x200) 1024
  let sup := s.readPa (area + 0x600) 1024
  let masks := s.readPa (area + 0x5000) 24576
  let h1 := (h.loadPc (wordOf (s.readPa (area + 0x100) 8))).loadShape (wordIn user 8)
  let c1 := (List.range 128).foldl (fun c n => c.load h1.vmax n (wordIn user (8 * n))) h1.csr
  let c2 := (List.range 128).foldl (fun c n => c.load h1.vmax (0x100 + n) (wordIn sup (8 * n))) c1
  s.loadPoison brim (({ h1 with
    x := Vector.ofFn fun r => wordIn x (8 * r.val)
    csr := c2
    m := Vector.ofFn fun r => BitVec.ofNat 8192 (fieldAt masks (1024 * r.val) 1024)
    tile := groupsOf 128 (s.readPa (area + 0xB000) 32768)
    v := groupsOf 256 (s.readPa (area + 0x13000) 65536)
    brim := groupsOf 256 (s.readLoc brim 65536) }.loadFlight (s.readPa (area + 0x100) 256)).loadTail
      (s.readLoc (brim + 65536) 4096))

/-- The private window of a save area, moved with the marks of bad words (R389). -/
def State.loadWindow (s : State) (area : Nat) (h : HartId) : State := s.moveBytes false (windowOf h) (area + 0x1000) 16384

/-! ## Places and regions (R286, R295) -/

/-- A hart as its place keeps it once it has gone: its registers stay as it left them until another starts there (R287), and
nothing of it is in flight. -/
def Hart.gone (h : Hart) : Hart :=
  { h with
    live := false
    queue := []
    convoys := []
    brimConvoys := []
    wait := none
    sleep := none
    paused := false
    halted := false
    stores := []
    laterals := []
    walked := false
    failedStore := none }

/-- A hart place freed. -/
def State.vacate (s : State) (i : HartId) : State :=
  if s.hart.id = i then { s with hart := s.hart.gone }
  else { s with parked := s.parked.map fun h => if h.id = i then h.gone else h }

/-- The region of a farm on a core. -/
def State.regionOn (s : State) (c : BitVec 7) (e : BitVec 6) : Option Region :=
  (s.cores[c.toNat]'c.isLt).regions.find? fun r => decide (r.farm = e)

/-- A region removed from a core. -/
def State.dropRegion (s : State) (c : BitVec 7) (e : BitVec 6) : State :=
  s.onCore c fun k => { k with regions := k.regions.filter fun r => decide (r.farm ≠ e) }

/-- Every region of a farm removed: no byte of it carries an owner tag any more. -/
def State.dropRegions (s : State) (e : BitVec 6) : State :=
  { s with cores := s.cores.map fun k => { k with regions := k.regions.filter fun r => decide (r.farm ≠ e) } }

/-- The owner tag of a farm's region on a core set to 0 (R295, step 1). -/
def State.untag (s : State) (c : BitVec 7) (e : BitVec 6) : State :=
  s.onCore c fun k => { k with regions := k.regions.map fun r => if r.farm = e then { r with tag := 0 } else r }

/-- The running harts of a farm on a core, ascending. -/
def State.sliceHarts (s : State) (c : BitVec 7) (f : Farm) : List Hart :=
  (s.hartsIn f).filter fun h => decide (coreOf h.id = c)

/-- The slice of a hart is being spilled: the hart has stopped. -/
def State.spilled (s : State) (h : Hart) : Bool :=
  s.ctl.spilling.any fun p => decide (p.core = coreOf h.id) &&
    (match s.farmAt p.farm with
     | some f => decide (f.farmid = h.csr.farmid)
     | none => false)

/-! ## Engine work and pre-emption (R301, R349) -/

/-- The scratchpad location that engine work would reach at an address, found by a walk of its own. -/
def State.scratchOf (s : State) (w : Work) (va : Word) : Option Nat :=
  match windowLoc w.issuer.hart va with
  | some l => some l
  | none =>
    match (s.walkFrom (fun _ => none) va 4 ((field w.issuer.ptbase 12 40).toNat * 4096) ⟨[], []⟩).1 with
    | .leaf e _ size => (apertureOf ((frameOf e + va.toNat % size) % 2 ^ 42)).map fun a => scratchBase a.1 + a.2
    | .miss _ => none

/-- The location that engine work would reach at an address, whatever the owner tags say. -/
def State.peekLoc (s : State) (w : Work) (va : Word) : Option Nat :=
  match s.scratchOf w va with
  | some l => some l
  | none =>
    match (s.walkFrom (fun _ => none) va 4 ((field w.issuer.ptbase 12 40).toNat * 4096) ⟨[], []⟩).1 with
    | .leaf e _ size => dramLoc ((frameOf e + va.toNat % size) % 2 ^ 42)
    | .miss _ => none

/-- The ranges that engine work writes: a copy's rows, a walk's output rows and the counts in its records, a probe's output
tiles. -/
def State.writesOf (s : State) (w : Work) : List (Word × Nat) :=
  match w.job with
  | .copy c => c.rows.map fun r => (r.1, r.2.2)
  | .walk v =>
    (List.range v.count).flatMap fun i =>
      let at_ := v.records + BitVec.ofNat 64 (64 * i)
      (at_ + 44, 4) ::
        (match (s.peekLoc w at_).bind fun l => Lookup.ofBytes (s.readLoc l 64) with
         | some r => [(r.out, r.outBytes)]
         | none => [])
  | .act a => if a.fill then [] else (a.tiles ++ a.settling.map fun t => t.1).map fun t => (t.output, a.bytes)
  | .coll _ => []

/-- A range of work reaches a region of a farm. -/
def State.reachesRegion (s : State) (w : Work) (c : BitVec 7) (r : Region) (va : Word) (n : Nat) : Bool :=
  let lo := scratchBase c.toNat + r.offset
  (spansOf va n).any fun p =>
    match s.scratchOf w p.1 with
    | some l => decide (l < lo + r.size) && decide (lo < l + p.2)
    | none => false

/-- Begun engine work that writes into the region of a farm's slice, or owns a mask of one of its harts. A fill that has
begun writes no region and owns no mask: it goes on, and aborts only where a read meets another owner tag (R348, R349;
assumption log 113). -/
def State.touchesSlice (s : State) (w : Work) (c : BitVec 7) (f : Farm) : Bool :=
  w.begun &&
    (((s.sliceHarts c f).any fun h => h.owner.any fun o => o == some w.id) ||
      (match s.regionOn c f.entry with
       | some r => (s.writesOf w).any fun p => s.reachesRegion w c r p.1 p.2
       | none => false))

/-- The begun engine work that pre-emption or the end of a slice aborts. -/
def State.doomedWorks (s : State) (c : BitVec 7) (f : Farm) : List Work := s.works.filter fun w => s.touchesSlice w c f

/-- That work aborted: its owner has changed (R348, R349). -/
def State.abortDoomed (s : State) (c : BitVec 7) (f : Farm) : State :=
  (s.doomedWorks c f).foldl (fun s w => s.abortWork w 1) s

/-- Queued work that harts of a slice started and that has not begun. The work of a hart that has retired is no hart's of
the slice: it stays in its queue under its old tag (R349; assumption log 113). -/
def Work.queuedBy (w : Work) (hs : List Hart) : Bool :=
  !w.begun && w.job.queue.isSome && hs.any fun h => h.started w.issuer

/-! ## Pre-emption of a slice (R295) -/

/-- A stalled owner is one of the harts. -/
def Owner.ofHarts (hs : List Hart) (o : Owner) : Bool :=
  match o with
  | .hart i => hs.any fun h => decide (h.id = i)
  | .brim i => hs.any fun h => decide (h.id = i)
  | _ => false

/-- An `mtv` at the head of the queue that has written some of its rows completes: it is saved completed, or as one that has
written nothing (R232). -/
def State.finishRows (s : State) : State :=
  (List.range 64).foldl (fun t _ => match t.hart.queue with
    | e :: rest => if e.op = .mtv ∧ e.written ≠ 0 then t.completeEntry e rest else t
    | [] => t) s

/-- Steps 1 and 2 of R295: the tag, the stops, and the copies that end. Held fault records are withdrawn (R273). The stores
that the harts have posted, and the lateral stores of groups that have committed, are performed (R175, R333); a store that
an earlier load holds back stays with its hart (R163). -/
def State.stopSlice (s : State) (c : BitVec 7) (f : Farm) (slot slotSize brimSlot : Nat) : State :=
  let hs := s.sliceHarts c f
  let t := s.untag c f.entry
  let u := hs.foldl (fun t h => withHart h.id (fun u => u.performFree.performLaterals.finishRows) t) t
  let v := (u.dropStalls fun o => o.ofHarts hs).abortDoomed c f
  { v with ctl := { v.ctl with spilling := v.ctl.spilling ++ [⟨f.entry, c, hs.length, slot, slotSize, brimSlot⟩] } }

/-- What a slice being spilled still waits for: answers of other packages, a migration or a launch of its harts, and
copies that end. -/
def State.slicePending (s : State) (c : BitVec 7) (f : Farm) : Bool :=
  let hs := s.sliceHarts c f
  let mine (i : HartId) : Bool := hs.any fun h => decide (h.id = i)
  (s.remote.any fun r => r.owner.ofHarts hs && decide (r.status = .sent) &&
    (match r.kind with
     | .read _ => false
     | _ => true)) ||
    (s.migrations.any fun m => mine m.hart) ||
    (s.ctl.launches.any fun l => l.hart.any fun p => mine p.1) ||
    !(s.doomedWorks c f).isEmpty

/-- A hart as it is kept while its slice stands pre-empted (R175, R176): waits end, but for the wait for a convoy. A store
that a load holds back is kept, and is translated where the hart resumes (R163). -/
def Hart.stopped (h : Hart) (area : Nat) : Hart :=
  { h with
    wait := if h.flying.any fun c => c.sync then h.wait else none
    sleep := none
    paused := false
    walked := false
    stores := h.stores.map fun p => { p with afresh := true }
    laterals := []
    csr := { h.csr with csa := BitVec.ofNat 64 area } }

/-- The slots of a cluster-placed farm kept with it, and given up (R242). A parity error that the save meets in a slot
marks it failed (R252). -/
def State.saveSlots (s0 : State) (c : BitVec 7) (f : Farm) : State :=
  let cl := c.extractLsb' 2 5
  if (s0.clusters[cl.toNat]'cl.isLt).owner = some f.entry then
    let s := (List.range 8).foldl (fun t k => t.meetSlotOf cl (BitVec.ofNat 3 k)) s0
    let k := s.clusters[cl.toNat]'cl.isLt
    ({ s with clusters := s.clusters.set cl.toNat { k with owner := none } cl.isLt }).onFarm f.entry fun g =>
      { g with savedSlots := some (k.slots, k.mismatchSent) }
  else s0

/-- Bytes from a physical address on, each with its address. -/
def State.addressed (s : State) (pa n : Nat) : List (Nat × Byte) := ((List.range n).map fun k => pa + k).zip (s.readPa pa n)

/-- The header of a slot (R299, R385): FARMID, COREID, region offset, region size, CTXID and the check codes, in a layout of
the model's own (assumption log 97); the check codes are free values. -/
def State.headerBytes (s : State) (f : Farm) (core : BitVec 7) (r : Option Region) (n : Nat) : List Byte :=
  let ctx := match (s.sliceHarts core f).head? with
    | some h => h.csr.ctxid
    | none => 0
  bytesOf f.farmid 8 ++ bytesOf (zext core) 8 ++ toBytes ((r.map Region.offset).getD 0) 8 ++
    toBytes ((r.map Region.size).getD 0) 8 ++ bytesOf ctx 8 ++
    tabulate (16 * n) (fun i => Config.internalByte (s.draws + 1) i) ++ List.replicate (4096 - 40 - 16 * n) 0

/-- The check codes in the header of a slot, and the internal bytes of its save areas, as written, by physical address
(R295, R385). -/
def State.internalOf (s : State) (slot n : Nat) : List (Nat × Byte) :=
  s.addressed (slot + 40) (16 * n) ++ (List.range n).flatMap fun i =>
    internalBlocks.flatMap fun b => s.addressed (slot + 4096 + saveBytes * i + b.1) b.2

/-- Steps 3 and 4 of R295: the contexts, the brim registers and the region written, the queued work taken along, and
the places, the region and the slots freed. -/
def State.spillSlice (s : State) (p : Spill) (f : Farm) : State :=
  let hs := s.sliceHarts p.core f
  let area (i : Nat) : Nat := p.slot + 4096 + saveBytes * i
  let t := (List.range hs.length).foldl (fun t i =>
    match hs[i]? with
    | some h => (t.saveContext (h.stopped (area i)) (area i)).saveBrim h (p.brimSlot + brimSaveBytes * i)
    | none => t) (s.writePa p.slot (s.headerBytes f p.core (s.regionOn p.core f.entry) hs.length))
  let region := t.regionOn p.core f.entry
  let u := match region with
    | some r => (t.moveBytes true (scratchBase p.core.toNat + r.offset) (area hs.length) r.size)
    | none => t
  let kept := (List.range hs.length).filterMap fun i => (hs[i]?).map fun h => h.stopped (area i)
  let q : Slice :=
    { core := p.core
      stack := p.core.extractLsb' 3 4
      region := region
      harts := kept
      slot := p.slot
      slotSize := p.slotSize
      brimSlot := p.brimSlot
      internal := u.internalOf p.slot hs.length
      works := u.works.filter fun w => w.queuedBy hs
      answers := u.remote.filter fun r => r.owner.ofHarts hs && decide (r.status ≠ .sent) &&
        (match r.kind with
         | .atomic _ _ _ _ => true
         | _ => false) }
  let v := { u.orphan (Owner.ofHarts hs) with
    works := u.works.filter fun w => !w.queuedBy hs
    ctl := { u.ctl with spilling := u.ctl.spilling.filter fun z => decide (z ≠ p) }
    pkg := { u.pkg with preemptions := satAdd u.pkg.preemptions 1 } }
  let w := (hs.foldl (fun v h => v.vacate h.id) (v.dropRegion p.core f.entry)).onFarm f.entry fun g =>
    { g with slices := g.slices ++ [q] }
  (if (w.hartsIn f).isEmpty then w.saveSlots p.core f else w).draw.draw

/-- The first slice being spilled that waits for nothing more is spilled. -/
def State.spillNext (s : State) : Option State :=
  s.ctl.spilling.findSome? fun p =>
    match s.farmAt p.farm with
    | some f =>
      let t := s.abortDoomed p.core f
      if t.slicePending p.core f then none else some (t.spillSlice p f)
    | none => none

/-- SLICE_SPILL_DONE (R295). -/
def execSliceSpillDone (s : State) : Host.Outcome State Fault Refusal := .next ((s.spillNext).getD s)

/-! ## Resumption (R296) -/

/-- A save area of the slice fails its check: a check code differs, or a word of what is loaded into registers cannot be
read. The private windows and the region carry the marks of their bad words with them. -/
def State.checkFails (s : State) (q : Slice) : Bool :=
  let area (i : Nat) : Nat := q.slot + 4096 + saveBytes * i
  s.failsPa q.slot 4096 || ((List.range q.harts.length).any fun i =>
    s.failsPa (area i) 0x1000 || s.failsPa (area i + 0x5000) (saveBytes - 0x5000) ||
      s.readFails (q.brimSlot + brimSaveBytes * i + 65536) 4096) || q.internal.any fun b =>
    match s.dramAt b.1 with
    | some l => decide (readCell s.mem l ≠ b.2)
    | none => true

/-- The errors that the spill engines meet as they read the save areas of a slice (R389). -/
def State.reportSaved (s : State) (q : Slice) : State :=
  (List.range q.harts.length).foldl (fun t i =>
    let area := q.slot + 4096 + saveBytes * i
    ((t.reportPa area 0x1000).reportPa (area + 0x5000) (saveBytes - 0x5000)).reportErrors none (q.brimSlot + brimSaveBytes * i)
      brimSaveBytes) (s.reportPa q.slot 4096)

/-- Where the harts of a slice go: each with its new place. -/
abbrev Moves := List (Hart × HartId)

/-- The new place of a hart. -/
def placeFor (ms : Moves) (i : HartId) : HartId :=
  match ms.find? fun m => decide (m.1.id = i) with
  | some m => m.2
  | none => i

/-- An owner renamed with its hart. -/
def Owner.rename (ms : Moves) (o : Owner) : Owner :=
  match o with
  | .hart k => .hart (placeFor ms k)
  | .brim k => .brim (placeFor ms k)
  | _ => o

/-- Engine work given its hart's new place and the slice's new tag. An address in the hart's own window then means the
scratchpad of its new core, which holds the region now (R344, R349; assumption log 113). -/
def Work.rename (ms : Moves) (tag : BitVec 48) (w : Work) : Work :=
  { w with issuer := { w.issuer with hart := placeFor ms w.issuer.hart, tag := tag } }

/-- A hart put at its place. -/
def State.occupy (s : State) (h : Hart) : State :=
  if s.hart.id = h.id then { s with hart := h } else { s with parked := insertHart h s.parked }

/-- A hart of a slice resumes at a place: its convoys run on from their start groups. -/
def State.resumeHart (s : State) (h : Hart) (area : Nat) (brim : Nat) (j : HartId) (tag : BitVec 48) : State :=
  let k := { s.loadContext h area brim with id := j }
  let k1 := { k with csr := { k.csr with ctxid := zext tag } }
  let t := (s.loadWindow area j).occupy k1
  withHart j (fun u => u.onHart fun g => { g with convoys := g.convoys.map fun c => c.startAt u c.next }) t

/-- A slice resumed on a core: its region, its harts at the given places, its queued work ahead of new work. -/
def State.resumeSlice (s : State) (f : Farm) (q : Slice) (c : BitVec 7) (ids : List HartId) (tag : BitVec 48) : State :=
  let area (i : Nat) : Nat := q.slot + 4096 + saveBytes * i
  let ms : Moves := q.harts.zip ids
  let t := match q.region with
    | some r =>
      (s.moveBytes false (scratchBase c.toNat + r.offset) (area q.harts.length) r.size).onCore c fun k =>
        { k with regions := k.regions ++ [{ r with tag := tag }], powerGated := false }
    | none => s
  let u := (List.range ms.length).foldl (fun u i =>
    match ms[i]? with
    | some m => u.resumeHart m.1 (area i) (q.brimSlot + brimSaveBytes * i) m.2 tag
    | none => u)
    { t with
      works := q.works.map (Work.rename ms tag) ++ t.works
      remote := t.remote ++ q.answers.map fun (r : RemoteRequest) => { r with owner := r.owner.rename ms } }
  u.onFarm f.entry fun g => { g with slices := g.slices.filter fun z => decide (z ≠ q) }

end Sys2Proof.Machine
end

