-- ==== Sys2Proof/Machine/Serve.lean ====
section
/-! DEFINITION. Serve.lean: which farm the controller serves, where it places harts and slices, how a hart starts, and
whom it pre-empts (R242, R285 to R287, R293, R294, R296). -/

namespace Sys2Proof.Machine

/-! ## Room -/

/-- A list in order. -/
def insertBy {α : Type} (le : α → α → Bool) (x : α) : List α → List α
  | [] => [x]
  | y :: ys => if le x y then x :: y :: ys else y :: insertBy le x ys

/-- A list sorted; equal entries keep their order. -/
def sortBy {α : Type} (le : α → α → Bool) (l : List α) : List α := l.foldr (insertBy le) []

/-- The free hart places of a core. -/
def State.freePlaces (s : State) (c : BitVec 7) : List HartId :=
  ((List.range 4).map fun k => c ++ BitVec.ofNat 2 k).filter fun i =>
    !(s.place i).live && !s.ctl.starting.any fun t => decide (t.hart = i)

/-- `size` bytes at an offset of a core's scratchpad share no byte with a region. -/
def State.regionFree (s : State) (c : BitVec 7) (off size : Nat) : Bool :=
  decide (size = 0) ||
    (decide (off + size ≤ scratchBytes) &&
      clear ((s.cores[c.toNat]'c.isLt).regions.map fun r => (r.offset, r.size)) off size)

/-- Harts of a farm that run or have been placed. -/
def State.runningOf (s : State) (f : Farm) : Nat :=
  (s.hartsIn f).length + (s.ctl.starting.filter fun t => decide (t.farm = f.entry)).length

/-- Harts of a farm that run or have been placed on a core. -/
def State.runningOn (s : State) (f : Farm) (c : BitVec 7) : Nat :=
  (s.sliceHarts c f).length +
    (s.ctl.starting.filter fun t => decide (t.farm = f.entry) && decide (coreOf t.hart = c)).length

/-- No running farm owns the slots of a cluster (R242). -/
def State.clusterFree (s : State) (cl : BitVec 5) : Bool :=
  match (s.clusters[cl.toNat]'cl.isLt).owner with
  | none => true
  | some e =>
    match s.farmAt e with
    | some g => decide (s.runningOf g = 0)
    | none => true

/-- Strips of a farm never handed out. -/
def Farm.unhanded (f : Farm) : Nat :=
  f.record.strips - ((f.nexts.zip f.record.firstStrips).map fun p => p.1 - p.2).sum

/-- A farm has unstarted harts (R286, R293). -/
def State.unstarted (s : State) (f : Farm) : Bool :=
  decide (f.record.strips ≠ 0) &&
    (if f.record.together then decide (f.started = 0)
     else decide (s.runningOf f < f.record.wanted) && decide (f.unhanded ≠ 0))

/-- A runnable farm that has unstarted or pre-empted harts (R285). -/
def State.hungry (s : State) (f : Farm) : Bool :=
  decide (f.phase = .runnable) && f.failing.isNone && (!f.slices.isEmpty || s.unstarted f)

/-- The effective priority of a farm with no unstarted or pre-empted hart is the record's (R293). -/
def State.settlePriorities (s : State) : State :=
  let g (f : Farm) : Farm := if s.hungry f then f else { f with priority := f.record.priority }
  { s with ctl := { s.ctl with farms := s.ctl.farms.map g } }

/-! ## Where new harts go (R242, R286) -/

/-- A slice of the farm waits to resume in a stack, or is being spilled there: its harts keep the free places of that stack
from new harts of the farm (R285, R292, R305). -/
def State.slicesWait (s : State) (f : Farm) (t : Nat) : Bool :=
  (f.slices.any fun q => decide (q.stack.toNat = t)) ||
    s.ctl.spilling.any fun p => decide (p.farm = f.entry) && decide (p.core.toNat / 8 = t)

/-- Slices of a farm that resumes as one unit are still being spilled (R242, R296). -/
def State.unitSpilling (s : State) (f : Farm) : Bool :=
  f.record.together && s.ctl.spilling.any fun p => decide (p.farm = f.entry)

/-- The cores that `n` further harts of a farm would take with its regions at an offset, one per core ascending, then a
second, and so on. -/
def State.spread (s : State) (f : Farm) (n off : Nat) : List (BitVec 7) :=
  let cores := ((f.record.stacks.filter fun t => !s.slicesWait f t).flatMap fun t => (List.range 8).map fun k => BitVec.ofNat 7 (8 * t + k))
  let held := cores.filterMap fun c =>
    if (s.regionOn c f.entry).isSome || s.regionFree c off f.record.scratch then
      some (c, s.runningOn f c, (s.freePlaces c).length)
    else none
  ((List.range 4).flatMap fun r =>
    held.filterMap fun p => if p.2.1 ≤ r ∧ r < p.2.1 + p.2.2 then some p.1 else none).take n

/-- The core of the `j`th hart of a cluster-placed farm. -/
def clusterCore (cl : BitVec 5) (j : Nat) : BitVec 7 := cl ++ BitVec.ofNat 2 j

/-- A cluster can hold a cluster-placed farm with its regions at an offset (R242). -/
def State.clusterFits (s : State) (f : Farm) (off : Nat) (cl : BitVec 5) : Bool :=
  f.record.stacks.contains (cl.toNat / 2) && s.clusterFree cl &&
    (List.range 4).all fun k =>
      let n := ((List.range f.record.wanted).filter fun j => decide (j % 4 = k)).length
      decide (n = 0) ||
        (decide (n ≤ (s.freePlaces (clusterCore cl k)).length) && s.regionFree (clusterCore cl k) off f.record.scratch)

/-- An element of a list that the device picks. -/
def pick {α : Type} (l : List α) (choice : Nat) : Option α := l[choice % l.length]?

/-- The cores of the harts of a farm with its regions at an offset. -/
def State.planAt (s : State) (f : Farm) (n off : Nat) : List (BitVec 7) :=
  if f.record.clustered then
    match pick (((List.range 32).map (BitVec.ofNat 5)).filter (s.clusterFits f off)) (Config.choice (s.draws + 1)) with
    | some cl => (List.range f.record.wanted).map (clusterCore cl)
    | none => []
  else s.spread f n off

/-- The offsets that a farm's regions may have: the one it has, or every multiple of 4 KiB. -/
def Farm.offsets (f : Farm) : List Nat :=
  match f.offset with
  | some o => [o]
  | none => if f.record.scratch = 0 then [0] else (List.range (768 - f.record.scratch / 4096 + 1)).map fun i => 4096 * i

/-- The offset and the cores for up to `n` further harts: as many as fit, or all of a farm that starts whole. -/
def State.plan (s : State) (f : Farm) (n : Nat) : Option (Nat × List (BitVec 7)) :=
  let sizes := f.offsets.map fun o => (o, (s.planAt f n o).length)
  let best := (sizes.map Prod.snd).foldl max 0
  let good := (sizes.filter fun p => decide (p.2 = best)).map Prod.fst
  if best = 0 || (f.record.together && decide (best < n)) then none
  else
    let c := 4096 * (Config.choice s.draws % 768)
    (if good.contains c then some c else good.head?).map fun o => (o, s.planAt f n o)

/-- The harts that a farm wants now (R286). -/
def State.wanted (s : State) (f : Farm) : Nat :=
  if f.record.together then f.record.wanted else f.record.wanted - s.runningOf f

/-! ## Placing and starting harts (R286, R287, R295) -/

/-- A CTXID that the package has not used. -/
def State.newTag (s : State) : BitVec 48 × State :=
  (BitVec.ofNat 48 s.ctl.nextTag, { s with ctl := { s.ctl with nextTag := s.ctl.nextTag + 1 } })

/-- A farm's region on a core, zeroed. -/
def State.openRegion (s : State) (c : BitVec 7) (r : Region) : State :=
  let l := scratchBase c.toNat + r.offset
  let t := s.onCore c fun k => { k with regions := k.regions ++ [r] }
  { t with mem := zeroCells t.mem l r.size, badUnits := t.badUnits.filter fun u => !coversUnit u l r.size }

/-- The ranks that harts of a farm hold. -/
def State.ranksOf (s : State) (f : Farm) : List Nat :=
  (s.hartsIn f).map (fun h => h.rank) ++ (s.ctl.starting.filter fun t => decide (t.farm = f.entry)).map fun t => t.rank

/-- The shares that harts of a farm hold on a core. -/
def State.sharesOn (s : State) (f : Farm) (c : BitVec 7) : List Nat :=
  (s.sliceHarts c f).map (fun h => h.share) ++
    (s.ctl.starting.filter fun t => decide (t.farm = f.entry) && decide (coreOf t.hart = c)).map fun t => t.share

/-- The lowest number that a list lacks. -/
def lowestFree (l : List Nat) : Nat := ((List.range (l.length + 1)).find? fun i => !l.contains i).getD 0

/-- vs of a hart: share `i` of `j` in the region (R287). -/
def shareAddress (off size j i : Nat) : Word :=
  if size = 0 then 0 else 0xFFFFFFF000000000 + BitVec.ofNat 64 (off + i * (256 * (size / (256 * j))))

/-- One hart placed on a core; `share` gives its share and the number of shares. -/
def State.placeHart (s : State) (f : Farm) (off : Nat) (c : BitVec 7) (tag : BitVec 48) (rank : Nat) (share : Nat × Nat) :
    State :=
  let t := if (s.regionOn c f.entry).isSome then s else s.openRegion c ⟨f.entry, off, f.record.scratch, tag⟩
  match pick (t.freePlaces c) (Config.choice t.draws) with
  | some i =>
    let st : Starting := ⟨f.entry, i, rank, share.1, shareAddress off f.record.scratch share.2 share.1⟩
    { t.draw with ctl := { t.ctl with starting := t.ctl.starting ++ [st] } }
  | none => t

/-- A cluster given to a farm with its slots. The storage of a slot that has failed stays failed until package reset, and a
slot that failed before its farm was pre-empted fails where it resumes: the spec does not say to which of the two the mark
belongs (R252; assumption log 98). -/
def State.giveCluster (s : State) (cl : BitVec 5) (e : BitVec 6) (slots : Vector Slot 8) (sent : Bool) : State :=
  s.onCluster cl fun k => { k with
    slots := slots.zipWith (fun x old => { x with failed := x.failed || old.failed }) k.slots
    owner := some e
    mismatchSent := sent }

/-- Every hart of a farm that starts whole, placed (R242, R286). -/
def State.placeAll (s : State) (f : Farm) (off : Nat) (cores : List (BitVec 7)) : State :=
  let r := s.newTag
  let t := (List.range cores.length).foldl (fun t j =>
    match cores[j]? with
    | some c => t.placeHart f off c r.1 j (((cores.take j).filter fun d => decide (d = c)).length, (cores.filter fun d => decide (d = c)).length)
    | none => t) r.2
  let u := t.onFarm f.entry fun g => { g with started := cores.length, offset := some off, ctxid := some r.1 }
  match f.record.clustered, cores.head? with
  | true, some c => u.giveCluster (c.extractLsb' 2 5) f.entry Cluster.reset.slots false
  | _, _ => u

/-- Further harts of an ORDERED or AFFINE farm placed (R286). -/
def State.placeSome (s : State) (f : Farm) (off : Nat) (cores : List (BitVec 7)) : State :=
  let t := cores.foldl (fun t c =>
    let r := if (t.regionOn c f.entry).isSome then (0, t) else t.newTag
    r.2.placeHart f off c r.1 (lowestFree (t.ranksOf f)) (lowestFree (t.sharesOn f c), min 4 f.record.wanted)) s
  t.onFarm f.entry fun g => { g with started := g.started + cores.length, offset := some off }

/-- Harts of a farm placed. -/
def State.placeHarts (s : State) (f : Farm) (p : Nat × List (BitVec 7)) : State :=
  if f.record.together then s.placeAll f p.1 p.2 else s.placeSome f p.1 p.2

/-- The registers of a hart at its start (R287). -/
def Farm.startX (f : Farm) (t : Starting) : Vector Word 32 :=
  ((((((Vector.replicate 32 (0 : Word)).set 1 0xFFFFFFF300000000).set 2 (BitVec.ofNat 64 t.rank)).set 3
    (BitVec.ofNat 64 f.record.wanted)).set 28 t.vs).set 29 f.record.link).set 30 0xFFFFFFF300004000

/-- A hart at its start (R287). -/
def Farm.startHart (f : Farm) (t : Starting) (tag : BitVec 48) : Hart :=
  let h := Hart.reset t.hart
  { h with
    live := true
    mode := f.mode
    pc := f.record.pc
    x := f.startX t
    rank := t.rank
    share := t.share
    csr := { h.csr with
      farmid := f.farmid
      strips := BitVec.ofNat 64 f.record.strips
      tvec := f.tvec
      tdeleg := f.tdeleg
      ptbase := f.ptbase
      ctxid := zext tag } }

/-- A placed hart starts, its private window holding the argument block (R287). -/
def State.startHart (s : State) (t : Starting) : State :=
  match s.farmAt t.farm with
  | some f =>
    let c := coreOf t.hart
    let tag := match s.regionOn c f.entry with
      | some r => r.tag
      | none => 0
    let u := (s.writeLoc (scalarBase c.toNat + 16384 * (placeIn t.hart).toNat) (f.block ++ List.replicate (16384 - 128) 0)).onCore c
      fun k => { k with powerGated := false }
    { u with ctl := { u.ctl with nextStart := u.ctl.nextStart + 1 } }.occupy { f.startHart t tag with serial := u.ctl.nextStart }
  | none => s

/-- The harts that start next: one, or every hart of a farm that starts whole. -/
def State.nextStarts (s : State) : List Starting :=
  match s.ctl.starting with
  | [] => []
  | t :: _ =>
    match s.farmAt t.farm with
    | some f => if f.record.together then s.ctl.starting.filter fun u => decide (u.farm = t.farm) else [t]
    | none => [t]

/-- HART_START (R287). -/
def State.startNext (s : State) : State :=
  let l := s.nextStarts
  l.foldl State.startHart { s with ctl := { s.ctl with starting := s.ctl.starting.filter fun t => !l.contains t } }

/-- HART_START (R287). -/
def execHartStart (s : State) : Host.Outcome State Fault Refusal := .next s.startNext

/-! ## Where slices resume (R242, R296) -/

/-- A slice, the core it resumes on, and the places of its harts. -/
abbrev Landing := Slice × BitVec 7 × List HartId

/-- A core can take a slice back. -/
def State.takes (s : State) (f : Farm) (q : Slice) (c : BitVec 7) : Bool :=
  decide (q.harts.length ≤ (s.freePlaces c).length) &&
    s.regionFree c ((q.region.map fun r => r.offset).getD 0) f.record.scratch

/-- Places and a region held for a slice that will resume on a core. -/
def State.reserve (s : State) (f : Farm) (c : BitVec 7) (q : Slice) (ids : List HartId) : State :=
  let t := s.onCore c fun k => { k with regions := k.regions ++ q.region.toList }
  { t with ctl := { t.ctl with starting := t.ctl.starting ++ ids.map fun i => ⟨f.entry, i, 0, 0, 0⟩ } }

/-- The places that a slice's harts take on a core, one after another as the device picks them. -/
def pickPlaces : Nat → Nat → List HartId → List HartId
  | 0, _, _ => []
  | n + 1, d, l =>
    match pick l (Config.choice d) with
    | some i => i :: pickPlaces n (d + 1) (l.filter fun j => decide (j ≠ i))
    | none => []

/-- Slices that resume, larger ones first: each on a core of its stack that the device picks, or (`tight`) on the fullest
that takes it. -/
def State.land (f : Farm) (tight : Bool) : List Slice → State → List Landing
  | [], _ => []
  | q :: qs, s =>
    let cores := (((List.range 8).map fun k => BitVec.ofNat 7 (8 * q.stack.toNat + k))).filter (s.takes f q)
    let best := sortBy (fun a b => decide ((s.freePlaces a).length ≤ (s.freePlaces b).length)) cores
    match (if tight then best.head? else pick cores (Config.choice s.draws)) with
    | some c =>
      let ids := pickPlaces q.harts.length (s.draws + 1) (s.freePlaces c)
      (q, c, ids) :: State.land f tight qs ((s.reserve f c q ids).draw)
    | none => State.land f tight qs s

/-- The clusters on which a cluster-placed farm can resume as it stood. -/
def State.unitCluster (s : State) (f : Farm) : Option (BitVec 5) :=
  pick (((List.range 32).map (BitVec.ofNat 5)).filter fun cl =>
    s.clusterFree cl && f.slices.all fun q =>
      decide (cl.toNat / 2 = q.stack.toNat) && s.takes f q (clusterCore cl (q.core.toNat % 4))) (Config.choice s.draws)

/-- Where a farm's pre-empted slices resume now; nothing of a farm that resumes whole unless all of it can. -/
def State.landings (s : State) (f : Farm) : List Landing :=
  if f.record.clustered then
    match s.unitCluster f with
    | some cl => f.slices.map fun q =>
        let c := clusterCore cl (q.core.toNat % 4)
        (q, c, pickPlaces q.harts.length (s.draws + 1) (s.freePlaces c))
    | none => []
  else
    let qs := sortBy (fun (a b : Slice) => decide (b.harts.length ≤ a.harts.length)) f.slices
    let l := State.land f false qs s
    if l.length = qs.length then l
    else if f.record.together then
      let m := State.land f true qs s
      if m.length = qs.length then m else []
    else l

/-- Slices resumed; a slice whose save area fails its check fails the farm instead (R295, R300). -/
def State.resume (s : State) (f : Farm) (ls : List Landing) : State :=
  let s := ls.foldl (fun t l => t.reportSaved l.1) s
  if ls.any fun l => s.checkFails l.1 then s.markFailing f.entry 3 noSubject
  else
    let unit := s.newTag
    let t := ls.foldl (fun t l =>
      let r := if f.record.together then (unit.1, t) else t.newTag
      r.2.resumeSlice f l.1 l.2.1 l.2.2 r.1) (if f.record.together then unit.2 else s)
    let u := if f.record.together then t.onFarm f.entry fun g => { g with ctxid := some unit.1 } else t
    match f.record.clustered, ls.head?, f.savedSlots with
    | true, some l, some z =>
      (u.giveCluster (l.2.1.extractLsb' 2 5) f.entry z.1 z.2).onFarm f.entry fun g => { g with savedSlots := none }
    | _, _, _ => u

/-! ## Victims (R294, R299, R333) -/

/-- The state as if a slice were gone. -/
def State.withoutSlice (s : State) (c : BitVec 7) (f : Farm) : State :=
  ((s.sliceHarts c f).foldl (fun s h => s.vacate h.id) s).dropRegion c f.entry

/-- The state as if every slice being spilled were gone. -/
def State.afterSpills (s : State) : State :=
  s.ctl.spilling.foldl (fun s p =>
    match s.farmAt p.farm with
    | some f => s.withoutSlice p.core f
    | none => s) s

/-- The cores that hold a slice of a farm that can be pre-empted now, descending. -/
def State.sliceCores (s : State) (f : Farm) : List (BitVec 7) :=
  (((List.range 128).reverse.map (BitVec.ofNat 7))).filter fun c => !(s.sliceHarts c f).isEmpty

/-- The units that may be taken for a farm, in the order of R294: slices, or a farm that is taken whole. -/
def State.victimUnits (s : State) (f : Farm) : List (Farm × List (BitVec 7)) :=
  let gs := s.ctl.farms.filter fun g => decide (g.entry ≠ f.entry) && decide (g.priority.toNat < f.priority.toNat) &&
    g.failing.isNone && !s.ctl.starting.any fun t => decide (t.farm = g.entry)
  (sortBy (fun (a b : Farm) => decide (a.priority.toNat < b.priority.toNat) ||
      (decide (a.priority = b.priority) && decide (b.order ≤ a.order))) gs).flatMap fun g =>
    let cs := s.sliceCores g
    if cs.isEmpty then [] else if g.record.together then [(g, cs)] else cs.map fun c => (g, [c])

/-- Slots found for one more victim slice, which is gone from the state answered (R299, R333). -/
def State.takeSlice (s : State) (g : Farm) (c : BitVec 7) : Option (State × Spill) :=
  let n := (s.sliceHarts c g).length
  let size := slotBytes n g.record.scratch
  match s.poolSlot size, s.brimPlace (c.extractLsb' 3 4) (brimSaveBytes * n) with
  | some slot, some brim =>
    let p : Spill := ⟨g.entry, c, n, slot, size, brim⟩
    let t := s.withoutSlice c g
    some ({ t with ctl := { t.ctl with spilling := t.ctl.spilling ++ [p] }, draws := t.draws + 2 }, p)
  | _, _ => none

/-- Slots found for every slice of a unit. -/
def State.takeUnit (g : Farm) : List (BitVec 7) → State → Option (State × List Spill)
  | [], s => some (s, [])
  | c :: cs, s =>
    match s.takeSlice g c with
    | some (t, p) =>
      match State.takeUnit g cs t with
      | some (u, ps) => some (u, p :: ps)
      | none => none
    | none => none

/-- Harts that a farm could place anew. -/
def State.newFits (s : State) (f : Farm) (n : Nat) : Nat :=
  match s.plan f n with
  | some p => p.2.length
  | none => 0

/-- What a served farm could place: hart places with their regions, for the harts of slices that resume and for new ones;
of a farm that resumes whole, its slices. -/
def State.fits (s : State) (f : Farm) (n : Nat) : Nat :=
  if f.slices.isEmpty then s.newFits f n
  else
    let ls := s.landings f
    if f.record.together then ls.length
    else
      let back := (ls.map fun l => l.2.2.length).sum
      let rest := { f with slices := f.slices.filter fun q => !ls.any fun l => decide (l.1 = q) }
      back + (if s.unstarted f && decide (back < n) then (ls.foldl (fun t l => t.reserve f l.2.1 l.1 l.2.2) s).newFits rest (n - back) else 0)

/-- What is enough for a served farm (R294). The harts of slices that wait hold strips already: they count even where no
strip is left to hand out (R292; assumption log 53). -/
def State.enough (s : State) (f : Farm) : Nat :=
  if f.record.together then (if f.slices.isEmpty then f.record.wanted else f.slices.length)
  else max (min (f.record.wanted - s.runningOf f) f.unhanded) (f.slices.map fun q => q.harts.length).sum

/-- A victim search: the state as if the victims were gone, the victims' slots, and the slices skipped. -/
structure Search where
  state : State
  taken : List Spill
  skipped : List (BitVec 6 × BitVec 7)

/-- Units taken in order until enough is free (R294). A unit that is skipped is named once for each of its slices, those for
which there was room included: the spec does not say whether a victim counts once or once a slice (R298; assumption log
99). -/
def Search.run (f : Farm) (n : Nat) : List (Farm × List (BitVec 7)) → Search → Search
  | [], r => r
  | (g, cs) :: us, r =>
    if n ≤ r.state.fits f n then r
    else
      match State.takeUnit g cs r.state with
      | some (t, ps) => Search.run f n us ⟨t, r.taken ++ ps, r.skipped⟩
      | none => Search.run f n us { r with skipped := r.skipped ++ cs.map fun c => (g.entry, c) }

/-- Victims skipped for a farm, each counted once until the farm has been served (R298). -/
def State.countSkipped (s : State) (f : Farm) (l : List (BitVec 6 × BitVec 7)) : State :=
  l.foldl (fun s v =>
    if s.ctl.skipped.contains (f.entry, v) then s
    else
      { s with
        ctl := { s.ctl with skipped := s.ctl.skipped ++ [(f.entry, v)] }
        pkg := { s.pkg with refusals := satAdd s.pkg.refusals 1 } }) s

/-- The victims of a search stopped (R295). -/
def State.stopVictims (s : State) (ps : List Spill) : State :=
  ps.foldl (fun s p =>
    match s.farmAt p.farm with
    | some g => s.stopSlice p.core g p.slot p.slotSize p.brimSlot
    | none => s) s

/-! ## Serving (R285) -/

/-- What the controller does for a farm. -/
inductive Served where
  | acted (s : State)
  /-- Its victims are being spilled. -/
  | waiting
  | nothing

/-- Victims sought for a farm that cannot place what it needs. -/
def State.preemptFor (s : State) (f : Farm) : Served :=
  let base := s.afterSpills
  let n := s.enough f
  if !s.ctl.spilling.isEmpty && decide (base.fits f n ≠ 0) then .waiting
  else
    let r := Search.run f n (base.victimUnits f) ⟨base, [], []⟩
    let t := s.countSkipped f r.skipped
    if !r.taken.isEmpty && decide (r.state.fits f n ≠ 0) then .acted ({ t with draws := r.state.draws }.stopVictims r.taken)
    else if t.pkg.refusals = s.pkg.refusals ∧ t.ctl.skipped = s.ctl.skipped then .nothing
    else .acted t

/-- A farm has been served: its effective priority, and the victims counted for it. -/
def State.servedFarm (s : State) (f : Farm) : State :=
  ({ s with ctl := { s.ctl with skipped := s.ctl.skipped.filter fun v => decide (v.1 ≠ f.entry) } }).settlePriorities.draw

/-- A farm served: slices resumed first, then harts started, then, when neither step can proceed, victims sought. -/
def State.serveFarm (s : State) (f : Farm) : Served :=
  let ls := if f.slices.isEmpty then [] else s.landings f
  if !ls.isEmpty then .acted ((s.resume f ls).servedFarm f)
  else
    match (if f.slices.isEmpty || (!f.record.together && s.unstarted f) then s.plan f (s.wanted f) else none) with
    | some p => .acted ((s.placeHarts f p).servedFarm f)
    | none => s.preemptFor f

/-- Farms served in order until one can proceed. -/
def State.serveFrom (s : State) : List Farm → Option State
  | [] => none
  | f :: fs =>
    match s.serveFarm f with
    | .acted t => some t
    | .waiting => none
    | .nothing => s.serveFrom fs

/-- The highest effective priority first, and among equals the farm accepted earliest. A unit that is still being spilled
does not resume in part (R242, R296). -/
def State.queueOrder (s : State) : List Farm :=
  sortBy (fun (a b : Farm) => decide (b.priority.toNat < a.priority.toNat) ||
    (decide (a.priority = b.priority) && decide (a.order ≤ b.order)))
    (s.ctl.farms.filter fun f => s.hungry f && !s.unitSpilling f)

/-- The controller serves a farm; `none` when it can do nothing. -/
def State.serve (s : State) : Option State := s.serveFrom s.queueOrder

/-- FARM_SERVE (R285). -/
def execFarmServe (s : State) : Host.Outcome State Fault Refusal := .next (s.serve.getD s)

/-- STARVATION_PROMOTION (R293). -/
def State.promote (s : State) (e : BitVec 6) : State :=
  match s.farmAt e with
  | some f =>
    if s.hungry f ∧ s.pkg.fstarve ≠ 0 ∧ f.priority ≠ 3 then s.onFarm e fun g => { g with priority := g.priority + 1 } else s
  | none => s

/-- STARVATION_PROMOTION (R293). -/
def execStarvationPromotion (f : BitVec 6) (s : State) : Host.Outcome State Fault Refusal := .next (s.promote f)

end Sys2Proof.Machine
end

