-- ==== Sys2Proof/Machine/Strips.lean ====
section
/-! DEFINITION. Strips.lean: `farmnext`, `retire`, the release of the farm-wide barrier, and how a farm ends (R288 to R291,
R300, R301). -/

namespace Sys2Proof.Machine

/-! ## Strips (R288) -/

/-- The end of a farm's run of strips `i`. -/
def Farm.runEnd (f : Farm) (i : Nat) : Nat := f.record.firstStrips.getD (i + 1) f.record.strips

/-- A run of strips has a strip left. -/
def Farm.left (f : Farm) (i : Nat) : Bool := decide (f.nexts.getD i 0 < f.runEnd i)

/-- The run from which a hart of a home stack takes its next strip: its own in AFFINE, else the lowest with one left. -/
def Farm.nextRun (f : Farm) (home : Nat) : Option Nat :=
  let own := f.record.stacks.idxOf home
  if f.record.kind = 1 ∧ own < f.record.stacks.length ∧ f.left own = true then some own
  else (List.range f.nexts.length).find? f.left

/-- One strip taken: its index, or none, and the farm after it. -/
def Farm.takeStrip (f : Farm) (home : Nat) : Option Nat × Farm :=
  match f.nextRun home with
  | some i => (some (f.nexts.getD i 0), { f with nexts := f.nexts.set i (f.nexts.getD i 0 + 1) })
  | none => (none, f)

/-- What `farmnext` writes: the strip, or −1. -/
def stripWord (r : Option Nat) : Word :=
  match r with
  | some n => BitVec.ofNat 64 n
  | none => 0xFFFFFFFFFFFFFFFF

/-- `farmnext` performed (R288). -/
def farmnextNow (d : BitVec 5) (s : State) : State :=
  match s.farmOf s.hart with
  | none => s.complete 4 fun t => t.setX d (stripWord none)
  | some f =>
    let r := f.takeStrip (homeOf s.hart.id).toNat
    s.complete 4 fun t => ((t.setX d (stripWord r.1)).onFarm f.entry fun _ => r.2).settlePriorities

/-- `farmnext` (R288). -/
def execFarmnext (d : BitVec 5) (s : State) : Host.Outcome State Fault Refusal :=
  .next (s.start (.farmnext d) [d] true (farmnextNow d s))

/-! ## retire (R289) -/

/-- Stores of a hart to other packages, whose answers its farm waits for from now on (R290). -/
def State.passStores (s : State) (f : Farm) (i : HartId) : State :=
  let mine (o : Owner) : Bool := decide (o = .hart i) || decide (o = .brim i)
  { s with remote := s.remote.map fun (r : RemoteRequest) =>
      if mine r.owner && r.kind.isWrite then { r with owner := .farm f.entry } else r }.orphan mine

/-- A core that holds no hart of a farm any more gives its region up. -/
def State.freeRegion (s : State) (f : Farm) (c : BitVec 7) : State :=
  if s.runningOn f c = 0 then s.dropRegion c f.entry else s

/-- A farm with no region anywhere may place its regions elsewhere next time. -/
def State.freeOffset (s : State) (e : BitVec 6) : State :=
  match s.farmAt e with
  | some f =>
    if f.slices.isEmpty ∧ s.runningOf f = 0 then s.onFarm e fun g => { g with offset := none } else s
  | none => s

/-- The current hart leaves its farm (R289, step 3). -/
def State.leave (s : State) (f : Farm) : State :=
  let i := s.hart.id
  let t := (s.performStores.passStores f i).vacate i
  let u := ((t.freeRegion f (coreOf i)).onFarm f.entry fun g => { g with retired := g.retired + 1 }).freeOffset f.entry
  if u.lag then u else u.gbarRelease f.entry

/-- `retire` performed (R289). -/
def retireNow (s : State) : State :=
  if errorBits s.hart.csr.bsum ≠ 0 then s.refuse .brim s.hart.csr.bsum
  else
    match s.farmOf s.hart with
    | some f => s.leave f
    | none => s.vacate s.hart.id

/-- `retire` (R289). -/
def execRetire (s : State) : Host.Outcome State Fault Refusal :=
  .next (s.start .retire [] (s.hart.still && s.hart.queue.isEmpty) (retireNow s))

/-! ## The farm-wide barrier (R291) -/

/-- GBAR_RELEASE (R291). -/
def execGbarRelease (f : BitVec 6) (s : State) : Host.Outcome State Fault Refusal := .next (s.gbarRelease f)

/-! ## Completion (R290) -/

/-- A farm has nothing left to do: no hart runs or stands pre-empted, and its strips or its harts are done. -/
def State.finished (s : State) (f : Farm) : Bool :=
  decide (f.phase = .runnable) && f.failing.isNone && f.slices.isEmpty && decide (s.runningOf f = 0) &&
    (decide (f.record.strips = 0) ||
      (if f.record.together then decide (f.retired = f.record.wanted) else decide (f.unhanded = 0))) &&
    !s.stalled (.farm f.entry) &&
    !s.remote.any fun r => decide (r.owner = .farm f.entry) && decide (r.status = .sent)

/-- What the end of a farm leaves: no slot, no region, no entry, and no work of the controller for it. -/
def State.forgetFarm (s : State) (e : BitVec 6) : State :=
  let g (k : Cluster) : Cluster := if k.owner = some e then { k with owner := none } else k
  let t := { s with clusters := s.clusters.map g }.orphan fun o => decide (o = Owner.farm e)
  let u := (t.dropRegions e).dropStalls fun o => decide (o = Owner.farm e)
  { u with ctl := { u.ctl with
      farms := u.ctl.farms.filter fun f => decide (f.entry ≠ e)
      starting := u.ctl.starting.filter fun t => decide (t.farm ≠ e)
      spilling := u.ctl.spilling.filter fun p => decide (p.farm ≠ e)
      skipped := u.ctl.skipped.filter fun v => decide (v.1 ≠ e) && decide (v.2.1 ≠ e) } }

/-- The completion EVENT, and the table entry freed. -/
def State.closeFarm (s : State) (f : Farm) : State :=
  (s.report 0x0010 noSubject [f.farmid, BitVec.ofNat 64 f.unhanded]).forgetFarm f.entry

/-- A finished farm completes (R290). -/
def State.completeFarm (s : State) (e : BitVec 6) : State :=
  match s.farmAt e with
  | none => s
  | some f =>
    if !s.finished f then s
    else if f.record.completion = 0 then s.closeFarm f
    else
      match s.ctlReach f.ptbase f.mode true f.record.completion with
      | (.error (.invalid lvl), t) => t.stall (.farm e) (f.faultInfo f.record.completion 11 lvl)
      | (.error .wait, _) => s
      | (.error .other, t) => t.markFailing e 5 noSubject
      | (.ok l, t) =>
        if t.readFails l 16 then (t.reportErrors none l 16).markFailing e 5 noSubject
        else (t.onArrival l fun a => a.contribute 64).closeFarm f

/-- FARM_COMPLETE (R290). -/
def execFarmComplete (f : BitVec 6) (s : State) : Host.Outcome State Fault Refusal := .next (s.completeFarm f)

/-! ## Failure and the control node's end (R300, R301) -/

/-- Every hart of a farm stops, and nothing of it is saved: migrations that they began end first, and launches that they
handed over go on without them. Stores that a hart has posted and that are not yet performed are dropped with it: the spec
does not say what becomes of them (R300; assumption log 100). -/
def State.stopHarts (s : State) (f : Farm) : State :=
  let hs := s.hartsIn f
  let t := hs.foldl (fun t h => withHart h.id State.pmigDone t) s
  let handedOver (l : Launch) : Launch :=
    match l.hart with
    | some (i, _) => if hs.any fun h => decide (h.id = i) then { l with hart := none } else l
    | none => l
  let u := { t.orphan (Owner.ofHarts hs) with ctl := { t.ctl with launches := t.ctl.launches.map handedOver } }
  hs.foldl (fun u h => u.vacate h.id) (u.dropStalls fun o => o.ofHarts hs)

/-- A farm stopped and gone, and its EVENT (R300, R395). -/
def State.endFarm (s : State) (f : Farm) (cause : BitVec 12) (subject : BitVec 32) : State :=
  ((s.stopHarts f).forgetFarm f.entry).report 0x0011 subject [f.farmid, zext cause]

/-- The failure that a farm must be stopped for (R300, R415): a halted hart, or what has been found. -/
def State.failureOf (s : State) (f : Farm) : Option (BitVec 12 × BitVec 32) :=
  match f.failing with
  | some c => some c
  | none => ((s.hartsIn f).find? fun h => h.halted).map fun h => (1, h.id.setWidth 32)

/-- FARM_FAIL (R300). -/
def State.failFarm (s : State) (e : BitVec 6) (cause : BitVec 12) : State :=
  match s.farmAt e with
  | some f =>
    match s.failureOf f with
    | some (c, subj) => if c = cause then s.endFarm f c subj else s
    | none => s
  | none => s

/-- FARM_FAIL (R300). -/
def execFarmFail (f : BitVec 6) (cause : BitVec 12) (s : State) : Host.Outcome State Fault Refusal :=
  .next (s.failFarm f cause)

/-- The engine work of a farm as the control node's end treats it: queued work is discarded, and begun work that writes
into a region or owns a mask aborts (R301, step 3). -/
def State.endWorks (s : State) (f : Farm) : State :=
  let t := (List.range 128).foldl (fun t c =>
    if (t.regionOn (BitVec.ofNat 7 c) f.entry).isSome then t.abortDoomed (BitVec.ofNat 7 c) f else t) s
  (t.works.filter fun w => !w.begun && decide (w.issuer.farmid = f.farmid)).foldl
    (fun t w => t.endWork w.id) t

/-- The farm of a FARMID. -/
def State.farmNamed (s : State) (id : Word) : Option Farm := s.ctl.farms.find? fun f => decide (f.farmid = id)

/-- The control node ends a farm (R301). -/
def State.endByNode (s : State) (f : Farm) : State := (s.endWorks f).endFarm f 0x100 noSubject

end Sys2Proof.Machine
end

