-- ==== Sys2Proof/Machine/Beryl.lean ====
section
/-! DEFINITION. Beryl.lean: the messages of the control node and the port that carries them (R272, R280, R301, R392 to
R395). -/

namespace Sys2Proof.Machine

/-! ## When a message is performed (R384, R392) -/

/-- The port carries no message: it is down, not yet trained, or the package is held in reset. -/
def Platform.deaf (p : Platform) : Bool :=
  !p.portUp || decide (p.boot = .off) || decide (p.boot = .training) || decide (p.boot = .tripped)

/-- A message performed where the boot sequence allows it, and answered "not ready" elsewhere. Messages are performed in
arrival order, so that one waits behind another that is `held`: an access or a migration has to end first (R268, R338,
R394). -/
def State.inOrder (s : State) (m : NodeMessage) (tag : BitVec 32) (ok : Boot → Bool) (held : Bool) (go : State) : State :=
  if s.plat.deaf then s
  else if !s.inbox.isEmpty || (ok s.plat.boot && held) then { s with inbox := s.inbox ++ [m] }
  else if ok s.plat.boot then go
  else s.report 0x0004 noSubject [zext tag]

/-- A message that waits for nothing but those before it. -/
def State.onMessage (s : State) (m : NodeMessage) (tag : BitVec 32) (ok : Boot → Bool) (go : State) : State :=
  s.inOrder m tag ok false go

/-- Only once the device is ready. -/
def whenReady (b : Boot) : Bool := decide (b = .ready)

/-- At step 6 of R384, and once the device is ready. -/
def fromIdentity (b : Boot) : Bool := decide (b = .identity) || decide (b = .ready)

/-- A message refused (R393). -/
def State.refuseMessage (s : State) (tag : BitVec 32) (addr : Word) : State := s.report 0x0003 noSubject [zext tag, addr]

/-- A message discarded as malformed (R392). -/
def State.discardMessage (s : State) (tag : BitVec 32) : State := s.report 0x0002 noSubject [zext tag]

/-! ## Memory messages (R393, R394) -/

/-- A length of MWRITE, MREAD or MGMT operation 5. -/
def lengthOk (n : Nat) : Bool := decide (1 ≤ n) && decide (n ≤ 4096)

/-- MWRITE performed. -/
def State.nodeWrite (s : State) (tag : BitVec 32) (pa : Word) (d : List Byte) : State :=
  match (if lengthOk d.length then s.partsAt pa.toNat d.length else none) with
  | none => s.refuseMessage tag pa
  | some ps => ps.foldl (fun t p => t.countAccess true p.1 p.2) (s.writePa pa.toNat d)

/-- MWRITE (R393): data that does not match the length makes the message malformed. -/
def execMwrite (tag : BitVec 32) (pa : Word) (len : BitVec 32) (data : List Byte) (s : State) :
    Host.Outcome State Fault Refusal :=
  .next (s.onMessage (.mwrite tag pa len data) tag whenReady
    (if data.length ≠ len.toNat then s.discardMessage tag else s.nodeWrite tag pa data))

/-- MREAD performed: errors in the data are reported. -/
def State.nodeRead (s : State) (tag : BitVec 32) (pa : Word) (n : Nat) : State :=
  match (if lengthOk n then s.partsAt pa.toNat n else none) with
  | none => s.emit (.mresp tag 1 [])
  | some ps =>
    let t := ps.foldl (fun t p => (t.countAccess true p.1 p.2).reportErrors none p.1 p.2) s
    t.emit (.mresp tag 0 (s.readPa pa.toNat n))

/-- MREAD (R393). -/
def execMread (tag : BitVec 32) (pa : Word) (len : BitVec 32) (s : State) : Host.Outcome State Fault Refusal :=
  .next (s.onMessage (.mread tag pa len) tag whenReady (s.nodeRead tag pa len.toNat))

/-- SIGNAL performed: one contribution. -/
def State.nodeSignal (s : State) (tag : BitVec 32) (pa : Word) (k : BitVec 32) : State :=
  match (if pa.toNat % 16 = 0 then s.dramAt pa.toNat else none) with
  | none => s.refuseMessage tag pa
  | some l => ((s.countAccess true l 16).reportErrors none l 16).onArrival l fun a => a.contribute k

/-- SIGNAL (R394). -/
def execSignal (tag : BitVec 32) (pa : Word) (bytes : BitVec 32) (s : State) : Host.Outcome State Fault Refusal :=
  .next (s.onMessage (.signal tag pa bytes) tag whenReady (s.nodeSignal tag pa bytes))

/-- REPLAY (R272). -/
def execReplay (tag : BitVec 32) (n : Word) (s : State) : Host.Outcome State Fault Refusal :=
  .next (s.onMessage (.replay tag n) tag whenReady (s.replay n))

/-! ## LAUNCH (R280) -/

/-- The record and the block that a LAUNCH message names; `none` when one cannot be read or the record is malformed. -/
def State.rootRecord (s : State) (ptbase : Word) (mode : Mode) (va : Word) :
    Except CStop (Option (FarmRecord × List Byte)) × State :=
  if va.toNat % 64 ≠ 0 then (.ok none, s)
  else
    match s.ctlRead ptbase mode va 64 with
    | (.error .wait, _) => (.error .wait, s)
    | (.error _, t) => (.ok none, t)
    | (.ok d, t) =>
      let r := FarmRecord.ofBytes d
      if r.malformed then (.ok none, t)
      else
        match State.ctlBlocks ptbase mode 8 r.args t with
        | (.error .wait, _) => (.error .wait, s)
        | (.error _, u) => (.ok none, u)
        | (.ok b, u) => (.ok (some (r, b)), u)

/-- A page of the record or the block of a LAUNCH is being migrated: the message waits (R338, R394). -/
def State.launchHeld (s : State) (ptbase : Word) (mode : Mode) (va : Word) : Bool :=
  match (s.rootRecord ptbase mode va).1 with
  | .error .wait => true
  | _ => false

/-- LAUNCH performed: the record and block handed to the controller. -/
def State.nodeLaunch (s : State) (tag : BitVec 32) (va ptbase tvec tdeleg : Word) (mode : Mode) : State :=
  match s.rootRecord ptbase mode va with
  | (.error _, _) => s
  | (.ok rb, t) =>
    let l : Launch := ⟨none, tag, rb, ptbase &&& hartMask 0x109, tvec &&& hartMask 0x101, tdeleg &&& hartMask 0x107, mode⟩
    let u := { t with ctl := { t.ctl with launches := t.ctl.launches ++ [l] } }
    if u.lag then u else u.judgeAll

/-- LAUNCH (R280). A mode that is neither 0 nor 1 refuses the message. -/
def execLaunchMessage (tag : BitVec 32) (record ptbase tvec tdeleg : Word) (mode : Byte) (s : State) :
    Host.Outcome State Fault Refusal :=
  let m : Mode := if mode = 0 then .user else .supervisor
  .next (s.inOrder (.launch tag record ptbase tvec tdeleg mode) tag whenReady
    (decide (mode.toNat ≤ 1) && s.launchHeld ptbase m record)
    (if 1 < mode.toNat then s.refuseMessage tag record else s.nodeLaunch tag record ptbase tvec tdeleg m))

/-- A message of unknown type, or whose flit count does not match its fields (R392); before the device is ready it is one of
the messages that are answered "not ready" (R384). -/
def execMalformedMessage (tag : BitVec 32) (s : State) : Host.Outcome State Fault Refusal :=
  .next (s.onMessage (.malformed tag) tag whenReady (s.discardMessage tag))

/-! ## MGMT operations on CSRs and farms (R301, R393) -/

/-- A package CSR's number. -/
def packageNumber (n : Word) : Bool :=
  decide (0x300 ≤ n.toNat) && decide (n.toNat < 0x380) && csrAllowed .supervisor (n.setWidth 11)

/-- MGMT operation 2 (R393): a write of XINV waits for every access that was translated with a dropped entry (R268). -/
def execMgmtCsrWrite (tag : BitVec 32) (num v : Word) (s : State) : Host.Outcome State Fault Refusal :=
  .next (s.inOrder (.csrWrite tag num v) tag fromIdentity (decide (num = 0x306) && s.xinvBusy v)
    (if packageNumber num then s.writePkg num.toNat v else s.refuseMessage tag num))

/-- MGMT operation 3 (R393). -/
def execMgmtCsrRead (tag : BitVec 32) (num : Word) (s : State) : Host.Outcome State Fault Refusal :=
  .next (s.onMessage (.csrRead tag num) tag fromIdentity
    (if packageNumber num then (s.clearPkg num.toNat).emit (.csrValue tag (s.readPkg num.toNat))
     else s.refuseMessage tag num))

/-- MGMT operation 7 (R301). -/
def execMgmtEndFarm (tag : BitVec 32) (farmid : Word) (s : State) : Host.Outcome State Fault Refusal :=
  .next (s.onMessage (.endFarm tag farmid) tag whenReady
    (match s.farmNamed farmid with
     | some f => s.endByNode f
     | none => s.refuseMessage tag farmid))

/-! ## The port (R395) -/

/-- BERYL_PORT_DOWN (R395). -/
def execBerylPortDown (s : State) : Host.Outcome State Fault Refusal :=
  .next { s with plat := { s.plat with portUp := false } }

/-- The count of lost events as the first message once the port is back; nothing when none was lost. -/
def Platform.lostEvent (p : Platform) : List Message :=
  if p.lost = 0 then [] else [.event 0x00FF noSubject [BitVec.ofNat 64 p.lost]]

/-- The port is up: held messages are sent in order (R395). -/
def State.portBack (s : State) : State :=
  if s.plat.portUp then s
  else { s with plat := { s.plat with
    portUp := true, sent := s.plat.sent ++ s.plat.lostEvent ++ s.plat.held, held := [], lost := 0 } }

/-- BERYL_PORT_UP (R395). -/
def execBerylPortUp (s : State) : Host.Outcome State Fault Refusal := .next s.portBack

/-! ## The bytes of a message (R388, R392, R393, R395) -/

/-- What the bytes of a message that comes in are. -/
inductive Inbound where
  /-- A message of the opcode table. -/
  | row (i : Instr)
  /-- An MGMT operation code of 8 or above: refused (R393). -/
  | noOperation (tag : BitVec 32) (value : Word)

/-- `n` bytes of a message from an offset on, as a number. -/
def msgField (d : List Byte) (o n : Nat) : Nat := leNat ((d.drop o).take n)

/-- Eight bytes of a message. -/
def msgWord (d : List Byte) (o : Nat) : Word := BitVec.ofNat 64 (msgField d o 8)

/-- Flits of a message with so many data bytes from byte 64 on. -/
def flitsFor (n : Nat) : Nat := 1 + (n + 63) / 64

/-- The tag of a message. -/
def msgTag (d : List Byte) : BitVec 32 := BitVec.ofNat 32 (msgField d 4 4)

/-- A message whose flit count is that of its fields, and of the bytes there are; else it is malformed (R392). -/
noncomputable def inFlits (d : List Byte) (flits : Nat) (m : Inbound) : Inbound :=
  if msgField d 2 2 = flits ∧ d.length = 64 * flits then m else .row (.malformedMessage (msgTag d))

/-- An MGMT message by its operation (R393). An operation code that the table lacks has no fields to which its flit count
could be held: the message is refused and not discarded (R392; assumption log 68). -/
noncomputable def decodeMgmt (d : List Byte) : Inbound :=
  let tag := msgTag d
  let a := msgWord d 16
  let b := msgWord d 24
  match msgField d 8 2 with
  | 0 => inFlits d 1 (.row (.mgmtIdentify tag))
  | 1 => inFlits d 1 (.row (.mgmtReset tag))
  | 2 => inFlits d 1 (.row (.mgmtCsrWrite tag a b))
  | 3 => inFlits d 1 (.row (.mgmtCsrRead tag a))
  | 4 => inFlits d 2 (.row (.mgmtExtend tag ((d.drop 64).take 64)))
  | 5 => inFlits d (flitsFor b.toNat) (.row (.mgmtFirmwareWrite tag a b ((d.drop 64).take b.toNat)))
  | 6 => inFlits d 1 (.row (.mgmtSetIdentity tag (BitVec.ofNat 16 (msgField d 32 2)) b))
  | 7 => inFlits d 1 (.row (.mgmtEndFarm tag a))
  | _ => .noOperation tag a

/-- A message of the control node by its type (R392, R393); an unknown type is malformed. -/
noncomputable def decodeMessage (d : List Byte) : Inbound :=
  let tag := msgTag d
  let n := BitVec.ofNat 32 (msgField d 16 4)
  match msgField d 0 1 with
  | 0x01 => inFlits d (flitsFor n.toNat) (.row (.mwrite tag (msgWord d 8) n ((d.drop 64).take n.toNat)))
  | 0x02 => inFlits d 1 (.row (.mread tag (msgWord d 8) n))
  | 0x10 =>
    inFlits d 1 (.row (.launchMessage tag (msgWord d 8) (msgWord d 16) (msgWord d 24) (msgWord d 32) (BitVec.ofNat 8 (msgField d 40 1))))
  | 0x12 => inFlits d 1 (.row (.signal tag (msgWord d 8) n))
  | 0x13 => inFlits d 1 (.row (.replay tag (msgWord d 8)))
  | 0x30 => inFlits d 1 (.row (.attest tag ((d.drop 8).take 32)))
  | 0x31 => decodeMgmt d
  | _ => .row (.malformedMessage tag)

/-- A message of a type with a tag: its payload from byte 8 on, in whole flits behind its header (R392). -/
def inMessage (kind : Nat) (tag : BitVec 32) (payload : List Byte) : List Byte :=
  let flits := (8 + payload.length + 63) / 64
  let d := toBytes kind 1 ++ toBytes 0 1 ++ toBytes flits 2 ++ toBytes tag.toNat 4 ++ payload
  d ++ List.replicate (64 * flits - d.length) 0

/-- The bytes of a message to the control node (R388, R393, R395); none for what goes over UALink or Spinel. An EVENT answers
no message and has tag 0; the identification word stands where R393 puts the value of a CSR read (assumption log 94). -/
def Message.bytes (m : Message) : List Byte :=
  match m with
  | .mresp tag status d =>
    inMessage 0x03 tag (toBytes status.toNat 4 ++ if d.isEmpty then [] else List.replicate 52 0 ++ d)
  | .accept tag v => inMessage 0x11 tag (bytesOf v 8)
  | .event kind subject values =>
    inMessage 0x20 0 (toBytes kind.toNat 2 ++ toBytes 0 2 ++ toBytes subject.toNat 4 ++ values.flatMap fun v => bytesOf v 8)
  | .attestReply tag busy d =>
    inMessage 0x30 tag (toBytes (if busy then 1 else 0) 4 ++ if d.isEmpty then [] else List.replicate 52 0 ++ d)
  | .identify tag w => inMessage 0x31 tag (toBytes 0 16 ++ toBytes w.toNat 8)
  | .csrValue tag v => inMessage 0x31 tag (toBytes 3 2 ++ toBytes 0 14 ++ bytesOf v 8)
  | .podIcsync => []
  | .uaResponse _ _ _ => []
  | .spinelResponse _ _ _ => []
  | .collectivePart _ _ _ _ _ _ _ _ _ _ => []
  | .collectiveAbort _ _ _ _ _ _ => []

/-- An MGMT operation code of 8 or above refused once the device is ready (R384, R393). -/
def State.refuseOperation (s : State) (tag : BitVec 32) (value : Word) : State :=
  s.onMessage (.noOperation tag value) tag whenReady (s.refuseMessage tag value)

end Sys2Proof.Machine
end

