-- ==== Sys2Proof/Machine/Shake.lean ====
section
/-! DEFINITION. Shake.lean: SHAKE256 of FIPS 202 with a 64-byte output, by which the device measures and checks images
(R386, R387). -/

namespace Sys2Proof.Machine

/-- The 25 lanes of the permutation; lane x of row y is number x + 5y. -/
abbrev Lanes25 := Vector Word 25

/-- A lane by column and row, both taken modulo 5. -/
def laneAt (a : Lanes25) (x y : Nat) : Word := a.toList.getD (x % 5 + 5 * (y % 5)) 0

/-- The lanes as a function of column and row. -/
def lanesOf (f : Nat → Nat → Word) : Lanes25 := Vector.ofFn fun i => f (i.val % 5) (i.val / 5)

/-- The rotation of each lane, in the order of the lanes. -/
def rotations : List Nat :=
  [0, 1, 62, 28, 27, 36, 44, 6, 55, 20, 3, 10, 43, 25, 39, 41, 45, 15, 21, 8, 18, 2, 61, 56, 14]

/-- The constants of the 24 rounds. -/
def roundConstants : List Word :=
  [0x0000000000000001, 0x0000000000008082, 0x800000000000808A, 0x8000000080008000, 0x000000000000808B,
    0x0000000080000001, 0x8000000080008081, 0x8000000000008009, 0x000000000000008A, 0x0000000000000088,
    0x0000000080008009, 0x000000008000000A] ++
  [0x000000008000808B, 0x800000000000008B, 0x8000000000008089, 0x8000000000008003, 0x8000000000008002,
    0x8000000000000080, 0x000000000000800A, 0x800000008000000A, 0x8000000080008081, 0x8000000000008080,
    0x0000000080000001, 0x8000000080008008]

/-- The parity of a column. -/
def columnParity (a : Lanes25) (x : Nat) : Word :=
  laneAt a x 0 ^^^ laneAt a x 1 ^^^ laneAt a x 2 ^^^ laneAt a x 3 ^^^ laneAt a x 4

/-- One round. -/
def keccakRound (a : Lanes25) (rc : Word) : Lanes25 :=
  let b := lanesOf fun x y => laneAt a x y ^^^ columnParity a (x + 4) ^^^ (columnParity a (x + 1)).rotateLeft 1
  let c := lanesOf fun x y =>
    (laneAt b (x + 3 * y) x).rotateLeft (rotations.getD ((x + 3 * y) % 5 + 5 * (x % 5)) 0)
  let d := lanesOf fun x y => laneAt c x y ^^^ (~~~(laneAt c (x + 1) y) &&& laneAt c (x + 2) y)
  d.set 0 (d[0] ^^^ rc)

/-- The permutation. -/
def keccak (a : Lanes25) : Lanes25 := roundConstants.foldl keccakRound a

/-- Bytes of one block. -/
def shakeRate : Nat := 136

/-- A block added to the lanes, which are then permuted. -/
def absorb (a : Lanes25) (d : List Byte) : Lanes25 :=
  keccak (lanesOf fun x y => laneAt a x y ^^^ wordOf ((d.drop (8 * (x + 5 * y))).take 8))

/-- Every block absorbed; the last one, shorter than the rate, carries the padding. -/
def absorbAll : Nat → Lanes25 → List Byte → Lanes25
  | 0, a, _ => a
  | k + 1, a, d =>
    if shakeRate ≤ d.length then absorbAll k (absorb a (d.take shakeRate)) (d.drop shakeRate)
    else
      let p := d ++ [0x1F#8] ++ List.replicate (shakeRate - 1 - d.length) 0
      absorb a (p.take (shakeRate - 1) ++ [p.getD (shakeRate - 1) 0 ||| 0x80#8])

/-- The first 64 bytes of SHAKE256 of a byte string. -/
def shake256 (d : List Byte) : List Byte :=
  ((absorbAll (d.length / shakeRate + 1) (Vector.replicate 25 0) d).toList.flatMap fun w => bytesOf w 8).take 64

end Sys2Proof.Machine
end

