-- ==== Sys2Proof/Machine/Slh.lean ====
section
/-! DEFINITION. Slh.lean: SLH-DSA-SHAKE-256s of FIPS 205, pure with an empty context string: the verification of firmware
images and the signature of an attestation (R386, R388; assumption log 102). -/

namespace Sys2Proof.Machine

/-! ## Parameters and addresses -/

/-- Bytes of a hash value. -/
def slhN : Nat := 32

/-- Bytes of a signature: R, 22 FORS paths of 15 values, and 8 layers of 67 chains and 8 path values. -/
def slhSigBytes : Nat := (1 + 22 * 15 + 64 + 8 * 67) * 32

/-- A number as `n` bytes, the most significant first. -/
def beBytes (v n : Nat) : List Byte := (toBytes v n).reverse

/-- The number that bytes hold, the most significant first. -/
def beNat (l : List Byte) : Nat := leNat l.reverse

/-- An address of the hash functions. -/
structure SlhAddr where
  layer : Nat
  tree : Nat
  kind : Nat
  /-- The last three words: key pair, then chain and hash, or height and index. -/
  pair : Nat
  mid : Nat
  low : Nat
  deriving DecidableEq, Repr

/-- The 32 bytes of an address. -/
def SlhAddr.bytes (a : SlhAddr) : List Byte :=
  beBytes a.layer 4 ++ beBytes a.tree 12 ++ beBytes a.kind 4 ++ beBytes a.pair 4 ++ beBytes a.mid 4 ++ beBytes a.low 4

/-- F, H and T: the tweakable hash of a message. -/
def slhHash (seed : List Byte) (a : SlhAddr) (m : List Byte) : List Byte := (shake256 (seed ++ a.bytes ++ m)).take slhN

/-- A secret value. -/
def slhPrf (seed sk : List Byte) (a : SlhAddr) : List Byte := (shake256 (seed ++ a.bytes ++ sk)).take slhN

/-- Value number `i` of a list of hash values. -/
def slhValue (sig : List Byte) (i : Nat) : List Byte := (sig.drop (i * slhN)).take slhN

/-! ## WOTS+ -/

/-- A chain from step `i` on, `k` steps. -/
def slhChain (seed : List Byte) (a : SlhAddr) (i : Nat) : Nat → List Byte → List Byte
  | 0, x => x
  | k + 1, x => slhChain seed a (i + 1) k (slhHash seed { a with low := i } x)

/-- The 67 digits of a message: 64 of its own in base 16, and three of their checksum. -/
def wotsDigits (m : List Byte) : List Nat :=
  let ds := m.flatMap fun b => [b.toNat / 16, b.toNat % 16]
  let sum := (ds.map fun d => 15 - d).foldl (· + ·) 0
  ds ++ [sum / 256 % 16, sum / 16 % 16, sum % 16]

/-- The public key of a leaf from the ends of its chains. -/
def wotsCompress (seed : List Byte) (a : SlhAddr) (ends : List (List Byte)) : List Byte :=
  slhHash seed { a with kind := 1, mid := 0, low := 0 } ends.flatten

/-- The secret start of a chain. -/
def wotsSecret (seed sk : List Byte) (a : SlhAddr) (i : Nat) : List Byte :=
  slhPrf seed sk { a with kind := 5, mid := i, low := 0 }

/-- The address of a chain of a leaf. -/
def wotsAddr (a : SlhAddr) (i : Nat) : SlhAddr := { a with kind := 0, mid := i, low := 0 }

/-- The public key of a leaf (WOTS+). -/
def wotsKey (seed sk : List Byte) (a : SlhAddr) : List Byte :=
  wotsCompress seed a (tabulate 67 fun i => slhChain seed (wotsAddr a i) 0 15 (wotsSecret seed sk a i))

/-- A WOTS+ signature. -/
def wotsSign (seed sk : List Byte) (a : SlhAddr) (m : List Byte) : List Byte :=
  ((wotsDigits m).zipIdx.map fun d => slhChain seed (wotsAddr a d.2) 0 d.1 (wotsSecret seed sk a d.2)).flatten

/-- The public key that a WOTS+ signature leads to. -/
def wotsFromSig (seed : List Byte) (a : SlhAddr) (sig m : List Byte) : List Byte :=
  wotsCompress seed a
    ((wotsDigits m).zipIdx.map fun d => slhChain seed (wotsAddr a d.2) d.1 (15 - d.1) (slhValue sig d.2))

/-! ## Trees -/

/-- The node of number `i` at height `z` over leaves. -/
def treeNode (leaf : Nat → List Byte) (node : Nat → Nat → List Byte → List Byte) : Nat → Nat → List Byte
  | 0, i => leaf i
  | z + 1, i => node (z + 1) i (treeNode leaf node z (2 * i) ++ treeNode leaf node z (2 * i + 1))

/-- The siblings on the way up from a leaf, `h` levels. -/
def treePath (leaf : Nat → List Byte) (node : Nat → Nat → List Byte → List Byte) (h i : Nat) : List Byte :=
  (tabulate h fun z => treeNode leaf node z ((i / 2 ^ z) ^^^ 1)).flatten

/-- The root that a leaf and its path lead to, from height `z` on. -/
def treeRoot (node : Nat → Nat → List Byte → List Byte) (path : List Byte) (z i : Nat) : Nat → List Byte → List Byte
  | 0, x => x
  | k + 1, x =>
    let y := slhValue path z
    treeRoot node path (z + 1) (i / 2) k (node (z + 1) (i / 2) (if i % 2 = 0 then x ++ y else y ++ x))

/-- A node of a layer's tree. -/
def xmssNode (seed : List Byte) (a : SlhAddr) (z i : Nat) (m : List Byte) : List Byte :=
  slhHash seed { a with kind := 2, pair := 0, mid := z, low := i } m

/-- A leaf of a layer's tree. -/
def xmssLeaf (seed sk : List Byte) (a : SlhAddr) (i : Nat) : List Byte := wotsKey seed sk { a with pair := i }

/-- The signature of one layer: a WOTS+ signature and a path of 8. -/
def xmssSign (seed sk : List Byte) (a : SlhAddr) (i : Nat) (m : List Byte) : List Byte :=
  wotsSign seed sk { a with pair := i } m ++ treePath (xmssLeaf seed sk a) (xmssNode seed a) 8 i

/-- The root that a layer's signature leads to. -/
def xmssFromSig (seed : List Byte) (a : SlhAddr) (i : Nat) (sig m : List Byte) : List Byte :=
  treeRoot (xmssNode seed a) (sig.drop (67 * slhN)) 0 i 8 (wotsFromSig seed { a with pair := i } sig m)

/-- The hypertree's signatures from layer `j` on, `k` layers. -/
def hyperSign (seed sk : List Byte) (j tree leaf : Nat) : Nat → List Byte → List Byte
  | 0, _ => []
  | k + 1, m =>
    let a : SlhAddr := ⟨j, tree, 0, 0, 0, 0⟩
    let sig := xmssSign seed sk a leaf m
    sig ++ hyperSign seed sk (j + 1) (tree / 256) (tree % 256) k (xmssFromSig seed a leaf sig m)

/-- The root that the hypertree's signatures lead to. -/
def hyperRoot (seed : List Byte) (j tree leaf : Nat) (sig : List Byte) : Nat → List Byte → List Byte
  | 0, m => m
  | k + 1, m =>
    hyperRoot seed (j + 1) (tree / 256) (tree % 256) (sig.drop (75 * slhN)) k
      (xmssFromSig seed ⟨j, tree, 0, 0, 0, 0⟩ leaf (sig.take (75 * slhN)) m)

/-! ## FORS -/

/-- Index number `i` of a message: 14 bits, the most significant first. -/
def forsIndex (md : List Byte) (i : Nat) : Nat := beNat md / 2 ^ (8 * md.length - 14 * (i + 1)) % 2 ^ 14

/-- A leaf of the FORS trees. -/
def forsLeaf (seed sk : List Byte) (a : SlhAddr) (i : Nat) : List Byte :=
  slhHash seed { a with mid := 0, low := i } (slhPrf seed sk { a with kind := 6, mid := 0, low := i })

/-- A node of the FORS trees. -/
def forsNode (seed : List Byte) (a : SlhAddr) (z i : Nat) (m : List Byte) : List Byte :=
  slhHash seed { a with mid := z, low := i } m

/-- A FORS signature: for each of 22 trees a secret value and a path of 14. The trees' leaves are numbered on. -/
def forsSign (seed sk : List Byte) (a : SlhAddr) (md : List Byte) : List Byte :=
  (tabulate 22 fun i =>
    let n := i * 2 ^ 14 + forsIndex md i
    slhPrf seed sk { a with kind := 6, mid := 0, low := n } ++ treePath (forsLeaf seed sk a) (forsNode seed a) 14 n).flatten

/-- The FORS public key that a signature leads to. -/
def forsFromSig (seed : List Byte) (a : SlhAddr) (sig md : List Byte) : List Byte :=
  slhHash seed { a with kind := 4, mid := 0, low := 0 } (tabulate 22 fun i =>
    let n := i * 2 ^ 14 + forsIndex md i
    let part := sig.drop (i * 15 * slhN)
    treeRoot (forsNode seed a) (part.drop slhN) 0 n 14 (slhHash seed { a with mid := 0, low := n } (part.take slhN))).flatten

/-! ## Signing and verification -/

/-- What the digest of a message selects: the FORS message, the tree and the leaf. -/
def slhSelect (r seed root m : List Byte) : List Byte × Nat × Nat :=
  let d := (shake256 (r ++ seed ++ root ++ m)).take 47
  (d.take 39, beNat ((d.drop 39).take 7), beNat ((d.drop 46).take 1))

/-- The message as it is signed: pure, with an empty context string. -/
def slhPure (m : List Byte) : List Byte := [0, 0] ++ m

/-- The address of the FORS trees of a leaf. -/
def forsAddr (tree leaf : Nat) : SlhAddr := ⟨0, tree, 3, leaf, 0, 0⟩

/-- The root of a key: that of the single tree of the top layer. -/
def slhRoot (seed sk : List Byte) : List Byte :=
  let a : SlhAddr := ⟨7, 0, 0, 0, 0, 0⟩
  treeNode (xmssLeaf seed sk a) (xmssNode seed a) 8 0

/-- A signature under a secret seed and a secret of the randomiser, with the value added to it. -/
def slhSign (seed sk prf add m : List Byte) : List Byte :=
  let root := slhRoot seed sk
  let p := slhPure m
  let r := (shake256 (prf ++ add ++ p)).take slhN
  let s := slhSelect r seed root p
  let a := forsAddr s.2.1 s.2.2
  let fors := forsSign seed sk a s.1
  r ++ fors ++ hyperSign seed sk 0 s.2.1 s.2.2 8 (forsFromSig seed a fors s.1)

/-- A signature of a message holds under a public key. -/
def slhVerify (key m sig : List Byte) : Bool :=
  let seed := key.take slhN
  let root := key.drop slhN
  let p := slhPure m
  let s := slhSelect (sig.take slhN) seed root p
  let fors := (sig.drop slhN).take (22 * 15 * slhN)
  decide (key.length = 2 * slhN) && decide (sig.length = slhSigBytes) &&
    decide (hyperRoot seed 0 s.2.1 s.2.2 (sig.drop ((1 + 22 * 15) * slhN)) 8
      (forsFromSig seed (forsAddr s.2.1 s.2.2) fors s.1) = root)

end Sys2Proof.Machine
end

