-- ==== Sys2Proof/Machine/Boot.lean ====
section
/-! DEFINITION. Boot.lean: reset, the boot sequence, measurements, attestation, identity, and power (R2, R379 to R388,
R393). -/

namespace Sys2Proof.Machine

/-! ## Measurements (R387) -/

/-- A measurement register extended. -/
def extend (m : BitVec 512) (d : List Byte) : BitVec 512 := BitVec.ofNat 512 (leNat (shake256 (toBytes m.toNat 64 ++ d)))

/-- Measurement register `k` extended. -/
def Platform.measure (p : Platform) (k : Fin 4) (d : List Byte) : Platform :=
  { p with measurements := p.measurements.set k (extend p.measurements[k] d) }

/-- The platform changed. -/
def State.onPlat (s : State) (f : Platform → Platform) : State := { s with plat := f s.plat }

/-! ## Images (R386) -/

/-- An image is accepted: its signature holds under a key whose digest the fuses hold, and its version is not below the
counter. -/
def imageOk (d : List Byte) : Bool :=
  slhVerify (Config.imageKey d) (Config.imageBody d) (Config.imageSignature d) &&
    decide (shake256 (Config.imageKey d) = Config.fuseRootDigest) &&
    decide (Config.fuseCounter.toNat ≤ (Config.imageVersion d).toNat)

/-- The measurement of an image: the digest of what is signed. -/
def imageDigest (d : List Byte) : List Byte := shake256 (Config.imageBody d)

/-- The boot stops at a step whose verification failed (R384). -/
def State.bootFails (s : State) (step : Nat) : State :=
  (s.onPlat fun p => { p with boot := .failed step }).report 0x0031 noSubject [BitVec.ofNat 64 step]

/-! ## Reset and boot (R383, R384) -/

/-- Everything at its reset value. What the device has sent, and the model's own fields, stay. -/
def State.packageReset (s : State) (b : Boot) : State :=
  { State.reset with
    plat := { Platform.reset with boot := b, portUp := s.plat.portUp, sent := s.plat.sent }
    agenda := s.agenda
    lag := s.lag
    issueClock := s.issueClock
    draws := s.draws }

/-- The root monitor image: no more than 64 KiB of flash (R385). -/
def rootMonitor : List Byte := Config.rootMonitor.take 65536

/-- Step 1: the boot ROM verifies and measures the root monitor. -/
def State.bootRom (s : State) : State :=
  if imageOk rootMonitor then
    s.onPlat fun p => { p.measure 0 (imageDigest rootMonitor) with boot := .training }
  else s.bootFails 1

/-- POWER_GOOD (R384): step 1. -/
def execPowerGood (s : State) : Host.Outcome State Fault Refusal :=
  .next (if s.plat.boot = .off then s.bootRom else s)

/-- Step 2: the root monitor has trained the Beryl port, which is up from here on. -/
def State.berylTrained (s : State) : State := (s.onPlat fun p => { p with boot := .firmware }).portBack

/-- BERYL_TRAINED (R384): step 2. -/
def execBerylTrained (s : State) : Host.Outcome State Fault Refusal :=
  .next (if s.plat.boot = .training then s.berylTrained else s)

/-- The untrusted firmware image in the firmware region. -/
def Platform.image (p : Platform) : List Byte := readCells p.firmware 0 (Config.imageLength p.firmware)

/-- FIRMWARE_VERIFY (R384): step 4. -/
def State.verifyFirmware (s : State) : State :=
  if s.plat.boot ≠ .firmware then s
  else if imageOk s.plat.image then
    s.onPlat fun p => { p.measure 1 (imageDigest p.image) with boot := .links }
  else s.bootFails 4

/-- FIRMWARE_VERIFY (R384). -/
def execFirmwareVerify (s : State) : Host.Outcome State Fault Refusal := .next s.verifyFirmware

/-- DRAM and the scratchpads zeroed (R384). -/
def State.zeroMemory (s : State) : State :=
  { s with
    mem := s.mem.filter fun c => decide (scalarBase 0 ≤ c.1)
    badUnits := s.badUnits.filter fun u => decide (scalarBase 0 ≤ u)
    poisoned := [] }

/-- The UALink ports whose lost lanes satisfy a condition. -/
def Platform.portsWhere (p : Platform) (f : BitVec 4 → Bool) : BitVec 18 :=
  (List.range 18).foldl (fun v k => if f (p.lanesLost.toList.getD k 0) then v ||| (1#18 <<< k) else v) 0

/-- The number of set bits of a lane mask. -/
def lanesOut (v : BitVec 4) : Nat := (bitList v 4).length

/-- TRAINING_DONE (R384): step 5. Which ports come up, and how wide, is a free value, within what their working lanes allow:
a port with fewer than two stays down, and one with two or three runs at x2 (R396). -/
def execTrainingDone (s : State) : Host.Outcome State Fault Refusal :=
  .next (if s.plat.boot ≠ .links then s
    else
      let t := (s.zeroMemory).onPlat fun p => { p with boot := .identity }
      let up := BitVec.ofNat 18 (Config.choice s.draws) &&& s.plat.portsWhere fun l => decide (lanesOut l ≤ 2)
      { t.draw.draw.draw with pkg := { t.pkg with
          ualinkUp := up
          ualinkX2 := up &&& (BitVec.ofNat 18 (Config.choice (s.draws + 1)) ||| s.plat.portsWhere fun l => decide (l ≠ 0))
          spinelUp := BitVec.ofNat 8 (Config.choice (s.draws + 2)) } })

/-- The 24 bytes that register 2 is extended with (R387). -/
def identityBytes (pkgid : BitVec 16) (coord : Word) : List Byte :=
  toBytes pkgid.toNat 2 ++ toBytes 0 6 ++ bytesOf coord 8 ++ toBytes Config.fuseCounter.toNat 4 ++ toBytes 0 4

/-- The bits that FABCOORD has (R401). -/
def fabcoordMask : Word := 0x1F1F1F1F1F1F

/-- Step 7: register 2 extended, and the ready EVENT. -/
def State.becomeReady (s : State) (pkgid : BitVec 16) (coord : Word) : State :=
  let t := { s with pkg := { s.pkg with pkgid := zext pkgid, fabcoord := coord &&& fabcoordMask } }
  (t.onPlat fun p => { p.measure 2 (identityBytes pkgid (coord &&& fabcoordMask)) with boot := .ready }).report 0x0001 noSubject
    [zext Config.identificationWord]

/-- MGMT operation 6 (R393): performed once, at step 6. -/
def execMgmtSetIdentity (tag : BitVec 32) (pkg : BitVec 16) (coord : Word) (s : State) :
    Host.Outcome State Fault Refusal :=
  .next (s.onMessage (.setIdentity tag pkg coord) tag fromIdentity
    (if s.plat.boot = .identity ∧ pkg.toNat ≤ 1023 then s.becomeReady pkg coord else s.refuseMessage tag coord))

/-- At any time from step 2 on. -/
def always (_b : Boot) : Bool := true

/-- MGMT operation 0 (R2). -/
def execMgmtIdentify (tag : BitVec 32) (s : State) : Host.Outcome State Fault Refusal :=
  .next (s.onMessage (.identify tag) tag always (s.emit (.identify tag Config.identificationWord)))

/-- MGMT operation 1 (R383): everything stops, and boot begins at step 1. It alone is performed while a thermal trip holds
the package in reset (R379). -/
def execMgmtReset (tag : BitVec 32) (s : State) : Host.Outcome State Fault Refusal :=
  .next (if s.plat.portUp && decide (s.plat.boot = .tripped) then (s.packageReset .off).bootRom
    else s.onMessage (.reset tag) tag always (s.packageReset .off).bootRom)

/-- MGMT operation 5 performed: bytes of the firmware region (R385, R393). -/
def State.writeFirmware (s : State) (tag : BitVec 32) (off : Word) (len : Word) (d : List Byte) : State :=
  if d.length ≠ len.toNat then s.discardMessage tag
  else if lengthOk len.toNat && decide (off.toNat + len.toNat ≤ 0x4000000) && decide (s.plat.boot = .firmware) then
    s.onPlat fun p => { p with firmware := writeCells p.firmware off.toNat d }
  else s.refuseMessage tag off

/-- MGMT operation 5 (R393). -/
def execMgmtFirmwareWrite (tag : BitVec 32) (off len : Word) (data : List Byte) (s : State) :
    Host.Outcome State Fault Refusal :=
  .next (s.onMessage (.firmwareWrite tag off len data) tag (fun b => decide (b = .firmware) || decide (b = .ready)) (s.writeFirmware tag off len data))

/-- MGMT operation 4 (R387): applied after the signing in progress (R388). -/
def execMgmtExtend (tag : BitVec 32) (digest : List Byte) (s : State) : Host.Outcome State Fault Refusal :=
  .next (s.onMessage (.extend tag digest) tag whenReady
    (if digest.length ≠ 64 then s.discardMessage tag
     else s.onPlat fun p => if p.attests.isEmpty then p.measure 3 digest else { p with extends3 := p.extends3 ++ [digest] }))

/-! ## The address filter (R385) -/

/-- Bytes that lie in the header of a save slot in use. -/
def State.inHeader (s : State) (pa n : Nat) : Bool :=
  s.ctl.slots.any fun u => decide (u.1 ≤ pa) && decide (pa + n ≤ u.1 + 4096)

/-- The untrusted firmware runs: from step 5 on (R384). -/
def Platform.firmwareRuns (p : Platform) : Bool := decide (p.boot = .links) || fromIdentity p.boot

/-- A read of memory that the untrusted firmware attempts: of a slot's header it gets the bytes, errors in them reported
(R389); any other returns zero and sends an EVENT, whose kind the spec does not give: a free value (assumption log 101). -/
def State.firmwareRead (s : State) (pa n : Nat) : State :=
  if !s.plat.firmwareRuns then s
  else if s.inHeader pa n then (s.reportPa pa n).onPlat fun p => { p with filtered := s.readPa pa n }
  else
    (s.draw.onPlat fun p => { p with filtered := List.replicate n 0 }).report (BitVec.ofNat 16 (Config.choice s.draws))
      noSubject []

/-- A read of the firmware region by the untrusted firmware, which the filter permits (R385). -/
def State.regionRead (s : State) (off n : Nat) : State :=
  if s.plat.firmwareRuns && decide (off + n ≤ 0x4000000) then
    s.onPlat fun p => { p with filtered := readCells p.firmware off n }
  else s

/-- A write of the firmware region by the untrusted firmware, which the filter permits (R385). -/
def State.regionWrite (s : State) (off : Nat) (d : List Byte) : State :=
  if s.plat.firmwareRuns && decide (off + d.length ≤ 0x4000000) then
    s.onPlat fun p => { p with firmware := writeCells p.firmware off d }
  else s

/-- A read of a package CSR by the untrusted firmware, which the filter permits, with the effect of any read: which of the
CSRs of the device it means by "CSRs" R385 does not say (assumption log 119). -/
def State.firmwareCsrRead (s : State) (num : Word) : State :=
  if s.plat.firmwareRuns && packageNumber num then
    (s.clearPkg num.toNat).onPlat fun p => { p with filtered := bytesOf (s.readPkg num.toNat) 8 }
  else s

/-- A write of a package CSR by the untrusted firmware, which the filter permits (R385); one of XINV is performed only once
nothing translated with a dropped entry is on its way (R268). -/
def State.firmwareCsrWrite (s : State) (num v : Word) : State :=
  if s.plat.firmwareRuns && packageNumber num && !(decide (num = 0x306) && s.xinvBusy v) then s.writePkg num.toNat v else s

/-! ## Attestation (R388) -/

/-- ATTEST (R388): one is being signed and four may wait; a further one is answered busy. -/
def execAttest (tag : BitVec 32) (nonce : List Byte) (s : State) : Host.Outcome State Fault Refusal :=
  .next (s.onMessage (.attest tag nonce) tag always
    (if nonce.length ≠ 32 then s.discardMessage tag
     else if 5 ≤ s.plat.attests.length then s.emit (.attestReply tag true [])
     else s.onPlat fun p => { p with attests := p.attests ++ [(tag, nonce)] }))

/-- The 64-byte device identity public key (R388). -/
def identityKey : List Byte :=
  Config.identitySeed.toList ++ slhRoot Config.identitySeed.toList Config.identitySecret.toList

/-- The 29,792-byte signature of a message under the device identity key (R388); `n` is the draw of its randomiser. -/
def identitySign (n : Nat) (d : List Byte) : List Byte :=
  slhSign Config.identitySeed.toList Config.identitySecret.toList Config.identityPrf.toList (Config.signRandom n).toList d

/-- Bytes 64 to 447 of a reply, which are signed. -/
def Platform.attested (p : Platform) (nonce : List Byte) : List Byte :=
  toBytes Config.identificationWord.toNat 4 ++ toBytes 0 4 ++ nonce ++ toBytes 0 24 ++
    (p.measurements.toList.flatMap fun m => toBytes m.toNat 64) ++ identityKey

/-- Extensions that waited for a signing. -/
def Platform.applyExtends (p : Platform) : Platform :=
  p.extends3.foldl (fun p d => p.measure 3 d) { p with extends3 := [] }

/-- A signing completes: the reply from byte 64 on, then the extensions that waited. -/
def State.replyAttest (s : State) : State :=
  match s.plat.attests with
  | [] => s
  | (tag, nonce) :: rest =>
    let d := s.plat.attested nonce
    ((s.draw.onPlat fun p => { p with attests := rest }).emit
      (.attestReply tag false (d ++ identitySign s.draws d ++ toBytes 0 32))).onPlat Platform.applyExtends

/-- ATTEST_REPLY (R388). -/
def execAttestReply (s : State) : Host.Outcome State Fault Refusal := .next s.replyAttest

/-! ## Power (R379, R381, R382) -/

/-- The power controller takes a reading: free values, at or below the power limit and 105 °C, where it holds them (R379,
R382). -/
def State.readSensors (s : State) : State :=
  { s.draw with pkg := { s.pkg with
      watts := BitVec.ofNat 12 (min (Config.watts s.draws).toNat s.pkg.pwrcap.toNat)
      temperature := BitVec.ofNat 8 (min (Config.temperature s.draws).toNat 105) } }

/-- THERMAL_TRIP (R379): at 115 °C all work stops and the package is held in reset. The EVENT is sent, or held while the
port is down. -/
def execThermalTrip (temp : Byte) (s : State) : Host.Outcome State Fault Refusal :=
  .next (if temp.toNat < 115 ∨ s.plat.boot = .off ∨ s.plat.boot = .tripped then s
    else (s.packageReset .tripped).report 0x0030 noSubject [zext temp])

/-- THROTTLE (R379): the fractions of issue and bank cycles withheld; an entry is counted. It changes only time. -/
def execThrottle (crown brim : Byte) (s : State) : Host.Outcome State Fault Refusal :=
  .next
    (let idle := decide (s.pkg.withheldCrown = 0) && decide (s.pkg.withheldBrim = 0)
     let entry := idle && (decide (crown ≠ 0) || decide (brim ≠ 0))
     { s with pkg := { s.pkg with
        withheldCrown := crown
        withheldBrim := brim
        throttles := if entry then satAdd s.pkg.throttles 1 else s.pkg.throttles } })

/-- POWER_REMOVED (R381): every piece of state is lost. -/
def execPowerRemoved (s : State) : Host.Outcome State Fault Refusal := .next (s.packageReset .off)

end Sys2Proof.Machine
end

