-- ==== Sys2Proof/Machine/Branch.lean ====
section
/-! DEFINITION. Branch.lean: branches, jumps and the `loop` instruction (R101 to R103), and their compressed forms (R46). -/

namespace Sys2Proof.Machine

/-- A branch of `len` bytes with a halfword offset (R101). -/
def State.branch {n : Nat} (s : State) (len : Nat) (srcs : List (BitVec 5)) (taken : Bool) (imm : BitVec n) : State :=
  if s.hart.busyX srcs then s
  else if taken then s.transfer (branchTarget s.hart.pc imm) fun t => t
  else s.complete len fun t => t

/-- Bit b[5:0] of a (R101). -/
def bitOf (a b : Word) : Bool := a.getLsbD (b.toNat % 64)

/-- `beq` (R101). -/
def execBeq (a b : BitVec 5) (imm : BitVec 11) (s : State) : Host.Outcome State Fault Refusal :=
  .next (s.branch 4 [a, b] (s.x a == s.x b) imm)

/-- `bne` (R101). -/
def execBne (a b : BitVec 5) (imm : BitVec 11) (s : State) : Host.Outcome State Fault Refusal :=
  .next (s.branch 4 [a, b] (s.x a != s.x b) imm)

/-- `blt` (R101). -/
def execBlt (a b : BitVec 5) (imm : BitVec 11) (s : State) : Host.Outcome State Fault Refusal :=
  .next (s.branch 4 [a, b] ((s.x a).slt (s.x b)) imm)

/-- `bge` (R101). -/
def execBge (a b : BitVec 5) (imm : BitVec 11) (s : State) : Host.Outcome State Fault Refusal :=
  .next (s.branch 4 [a, b] ((s.x b).sle (s.x a)) imm)

/-- `bltn` (R101). -/
def execBltn (a b : BitVec 5) (imm : BitVec 11) (s : State) : Host.Outcome State Fault Refusal :=
  .next (s.branch 4 [a, b] ((s.x a).ult (s.x b)) imm)

/-- `bgen` (R101). -/
def execBgen (a b : BitVec 5) (imm : BitVec 11) (s : State) : Host.Outcome State Fault Refusal :=
  .next (s.branch 4 [a, b] ((s.x b).ule (s.x a)) imm)

/-- `bbs` (R101). -/
def execBbs (a b : BitVec 5) (imm : BitVec 11) (s : State) : Host.Outcome State Fault Refusal :=
  .next (s.branch 4 [a, b] (bitOf (s.x a) (s.x b)) imm)

/-- `bbc` (R101). -/
def execBbc (a b : BitVec 5) (imm : BitVec 11) (s : State) : Host.Outcome State Fault Refusal :=
  .next (s.branch 4 [a, b] (!bitOf (s.x a) (s.x b)) imm)

/-- A jump to an offset that links (R102). -/
def State.jump {n : Nat} (s : State) (len : Nat) (d : BitVec 5) (imm : BitVec n) : State :=
  if s.hart.busyX [d] then s
  else s.transfer (branchTarget s.hart.pc imm) fun t => t.setX d (s.nextPc len)

/-- A jump to an address in a register: MISALIGN is checked before CONVOY (R102). -/
def State.jumpTo (s : State) (len : Nat) (d a : BitVec 5) (off : Word) : State :=
  if s.hart.busyX [d, a] then s
  else
    let t := s.x a + off
    if bit t 0 then s.refuse .misalign t else s.transfer t fun u => u.setX d (s.nextPc len)

/-- `jal` (R102). -/
def execJal (d : BitVec 5) (imm : BitVec 18) (s : State) : Host.Outcome State Fault Refusal :=
  .next (s.jump 4 d imm)

/-- `jalr` (R102). -/
def execJalr (d a : BitVec 5) (imm : BitVec 13) (s : State) : Host.Outcome State Fault Refusal :=
  .next (s.jumpTo 4 d a (sext imm))

/-- The effect of `loop` once its checks have passed, and the address it goes on at (R103). -/
def Csrs.startLoop (c : Csrs) (k : Fin 2) (start stop n : Word) : Csrs × Word :=
  let c1 := { c with lstart := c.lstart.set k start, lend := c.lend.set k stop, lcnt := c.lcnt.set k n }
  (c1, if n = 0 then stop else start)

/-- A `loop` of level k with count n and end `stop` (R103). R104 applies to it at the address it sets, with the loop
registers that it leaves. -/
def State.loopTo (s : State) (k : Fin 2) (n stop : Word) : State :=
  let c := s.hart.csr
  let o := 1 - k
  let start := s.hart.pc + 4
  if c.lcnt[k] ≠ 0 then s.refuse .loop (BitVec.ofNat 64 k.val)
  else if c.lcnt[o] ≠ 0 ∧ ¬(c.lstart[o].toNat ≤ start.toNat ∧ stop.toNat ≤ c.lend[o].toNat) then
    s.refuse .loop (BitVec.ofNat 64 k.val)
  else
    let r := c.startLoop k start stop n
    let s1 := s.onCsr fun _ => r.1
    let f := r.1.fallThrough s.hart.pc r.2
    s.going (s.startCheck stop) stop
      (s.going (s1.edge s.hart.pc r.2) f.1 (s1.onHart fun h => { h with pc := f.1, csr := f.2, reissue := 0 }))

/-- `loop` (R103). -/
def execLoop (k : BitVec 1) (a : BitVec 5) (imm : BitVec 13) (s : State) : Host.Outcome State Fault Refusal :=
  .next (if s.hart.busyX [a] then s
    else s.loopTo (if k = 0 then 0 else 1) (s.x a) (s.hart.pc + zext imm <<< 1))

/-! ## Compressed forms (R46) -/

/-- `cJ` (R46). -/
def execCJ (imm : BitVec 13) (s : State) : Host.Outcome State Fault Refusal :=
  .next (s.jump 2 0 imm)

/-- `cBeqz` (R46). -/
def execCBeqz (a : BitVec 3) (imm : BitVec 9) (s : State) : Host.Outcome State Fault Refusal :=
  .next (s.branch 2 [cReg a] (s.x (cReg a) == 0) imm)

/-- `cBnez` (R46). -/
def execCBnez (a : BitVec 3) (imm : BitVec 9) (s : State) : Host.Outcome State Fault Refusal :=
  .next (s.branch 2 [cReg a] (s.x (cReg a) != 0) imm)

/-- `cJr` (R46). -/
def execCJr (a : BitVec 5) (s : State) : Host.Outcome State Fault Refusal :=
  .next (s.jumpTo 2 0 a 0)

/-- `cJalr` (R46). -/
def execCJalr (a : BitVec 5) (s : State) : Host.Outcome State Fault Refusal :=
  .next (s.jumpTo 2 31 a 0)

/-- `cRet` (R46). -/
def execCRet (s : State) : Host.Outcome State Fault Refusal :=
  .next (s.jumpTo 2 0 31 0)

end Sys2Proof.Machine
end

