-- ==== Sys2Proof/Machine/Copy.lean ====
section
/-! DEFINITION. Copy.lean: the copy engines (R339 to R350). -/

namespace Sys2Proof.Machine

/-! ## Fields of the copy CSRs (R342) -/

/-- CPOPT.CHUNK. -/
def Csrs.chunkMode (c : Csrs) : Bool := bit c.cpopt 19

/-- CPOPT.MK. -/
def Csrs.chunkMask (c : Csrs) : BitVec 5 := (field c.cpopt 16 3).setWidth 5

/-- CPOPT.ROWBYTES. -/
def Csrs.rowBytes (c : Csrs) : Nat := (field c.cpopt 0 16).toNat

/-- CPROWS. -/
def Csrs.copyRows (c : Csrs) : Nat := c.cprows.toNat % 2 ^ 32

/-- Chunks of a number of bytes; a copy of 0 bytes has one step, in which it contributes. -/
def chunksOf (total : Nat) : Nat := max 1 ((total + 255) / 256)

/-! ## At issue (R343 to R345) -/

/-- Element r of vi, as s32, times the row size. -/
def State.rowOffset (s : State) (vi : BitVec 5) (b r : Nat) : Word :=
  wrap64 (intOf 32 true (s.hart.elemAt false vi.toNat 32 r) * b)

/-- An s32 stride times a row number. -/
def strideOffset (v : BitVec 32) (r : Nat) : Word := wrap64 (v.toInt * r)

/-- The home stack of a place of the package, where an address is translated for no access. For an address that has no
translation at issue the spec names no stack: it is the hart's home stack (assumption log 96). -/
def State.stackOfAddress (s : State) (va : Word) : BitVec 4 :=
  let home := homeOf s.hart.id
  match windowLoc s.hart.id va with
  | some l => BitVec.ofNat 4 ((l - scratchBase 0) / 0x400000 / 8)
  | none =>
    if !canonical va || inLocal va then home
    else
      match (s.walkFrom (fun _ => none) va 4 ((field s.hart.csr.ptbase 12 40).toNat * 4096) ⟨[], []⟩).1 with
      | .leaf e _ size =>
        if field e 14 2 = 2 then home
        else
          let p := (frameOf e + va.toNat % size) % 2 ^ 42
          match dramLoc p with
          | some l => BitVec.ofNat 4 (stackOf l)
          | none =>
            match apertureOf p with
            | some (c, _) => BitVec.ofNat 4 (c / 8)
            | none => home
      | .miss _ => home

/-- The checks of a copy (R344). `vi` is the index register of `copy.g` and `copy.s`. -/
def State.copyChecks (s : State) (isS : Bool) (vi : Option (BitVec 5)) (d a : Word) (total : Nat) : List Check :=
  let c := s.hart.csr
  let w := BitVec.ofNat 64 total
  let bad (va : Word) := !engineAddress s.hart.id va
  [(c.chunkMode && (decide (c.chunkMask = 0) || isS), .bound, c.cpopt),
    (vi.isSome && decide (c.rowBytes = 0), .bound, c.cpopt),
    (vi.isSome && decide (64 * s.hart.count.groups < c.copyRows), .bound, BitVec.ofNat 64 c.copyRows),
    (decide (2 ^ 32 - 1 < total), .bound, w),
    (c.chunkMode && decide (s.hart.count.groups < (total + 255) / 256), .bound, w),
    (decide (c.cpaw.toNat % 16 ≠ 0), .misalign, c.cpaw),
    (bad c.cpaw, .access, c.cpaw), (bad d, .access, d), (bad a, .access, a)]

/-- The work of a copy placed in its queue, its chunk mask owned (R339, R347). -/
def State.placeCopy (s : State) (st : BitVec 4) (rows : List (Word × Word × Nat)) (total : Nat) : State :=
  let c := s.hart.csr
  let mask := if c.chunkMode then some (c.chunkMask, s.hart.count, s.hart.elem) else none
  let job := Job.copy ⟨rows, total, c.cpaw, mask, List.replicate (chunksOf total) .todo⟩
  let s1 := if c.chunkMode then s.takeMask c.chunkMask else s
  s1.enqueueWork st job

/-- A copy whose waits have ended. `n` is the size of a row, `k` the number of rows, `row` their addresses. -/
def State.copyNow (s : State) (i : Instr) (isS : Bool) (vi : Option (BitVec 5)) (d a : Word) (n k : Nat)
    (row : Nat → Word × Word) : State :=
  let c := s.hart.csr
  let total := n * k
  let declared := match vi with
    | some v => s.hart.count.declares [v.toNat]
    | none => true
  if !declared then s.refuse .illegal s.hart.pc
  else if c.chunkMode && s.hart.owns c.chunkMask then s.refuse .owned (zext c.chunkMask)
  else
    let checks := s.copyChecks isS vi d a total
    match (if (firstFailure checks).isNone then vi.bind fun v => s.registerPoison v (4 * k) else none) with
    | some (t, u) => s.stopAt u t
    | none =>
      let st := if isS || decide (total = 0) then homeOf s.hart.id else s.stackOfAddress (row 0).1
      let rows := if total = 0 then [] else tabulate k fun r => ((row r).1, (row r).2, n)
      s.launchWork i checks c.cpaw (s.queueRoom st .copies) fun t => t.placeCopy st rows total

/-- A copy may be performed: it waits for the rows of its index register and for the convoys that read or write its chunk
mask (R135, R229, R339). -/
def State.copyReady (s : State) (vi : Option (BitVec 5)) : Bool :=
  s.engineReadyFor vi (if s.hart.csr.chunkMode then some s.hart.csr.chunkMask else none)

/-- `copy.l` performed (R343). -/
def copyLNow (d a b : BitVec 5) (s : State) : State :=
  s.copyNow (.copyL d a b) false none (s.x d) (s.x a) (s.x b).toNat 1 fun _ => (s.x d, s.x a)

/-- `copy.l` (R343). -/
def execCopyL (d a b : BitVec 5) (s : State) : Host.Outcome State Fault Refusal :=
  .next (s.start (.copyL d a b) [d, a, b] (s.copyReady none) (copyLNow d a b s))

/-- `copy.2d` performed (R343). -/
def copy2dNow (d a b : BitVec 5) (s : State) : State :=
  let c := s.hart.csr
  s.copyNow (.copy2d d a b) false none (s.x d) (s.x a) (s.x b).toNat c.copyRows fun r =>
    (s.x d + strideOffset (field c.cpstride 32 32) r, s.x a + strideOffset (field c.cpstride 0 32) r)

/-- `copy.2d` (R343). -/
def execCopy2d (d a b : BitVec 5) (s : State) : Host.Outcome State Fault Refusal :=
  .next (s.start (.copy2d d a b) [d, a, b] (s.copyReady none) (copy2dNow d a b s))

/-- `copy.g` performed (R343). -/
def copyGNow (d a b : BitVec 5) (s : State) : State :=
  let n := s.hart.csr.rowBytes
  s.copyNow (.copyG d a b) false (some b) (s.x d) (s.x a) n s.hart.csr.copyRows fun r =>
    (s.x d + BitVec.ofNat 64 (r * n), s.x a + s.rowOffset b n r)

/-- `copy.g` (R343). -/
def execCopyG (d a b : BitVec 5) (s : State) : Host.Outcome State Fault Refusal :=
  .next (s.start (.copyG d a b) [d, a] (s.copyReady (some b)) (copyGNow d a b s))

/-- `copy.s` performed (R343). -/
def copySNow (d a b : BitVec 5) (s : State) : State :=
  let n := s.hart.csr.rowBytes
  s.copyNow (.copyS d a b) true (some b) (s.x d) (s.x a) n s.hart.csr.copyRows fun r =>
    (s.x d + s.rowOffset b n r, s.x a + BitVec.ofNat 64 (r * n))

/-- `copy.s` (R343). -/
def execCopyS (d a b : BitVec 5) (s : State) : Host.Outcome State Fault Refusal :=
  .next (s.start (.copyS d a b) [d, a] (s.copyReady (some b)) (copySNow d a b s))

/-! ## A chunk (R343, R346) -/

/-- A span of one row in the destination sequence: destination, source, length, and the rows after it, each with the
position of its first byte in the sequence. -/
structure Span where
  dst : Word
  src : Word
  len : Nat
  later : List (Nat × Word × Nat)
  deriving DecidableEq, Repr

/-- Rows with the positions of their first bytes. -/
def rowPositions : Nat → List (Word × Word × Nat) → List (Nat × Word × Nat)
  | _, [] => []
  | pos, (d, _, l) :: rest => (pos, d, l) :: rowPositions (pos + l) rest

/-- The spans of bytes `skip` to `skip+n−1` of the destination sequence that begins at position `pos`. -/
def chunkSpans : Nat → List (Word × Word × Nat) → Nat → Nat → List Span
  | _, [], _, _ => []
  | pos, (d, a, l) :: rest, skip, n =>
    if n = 0 then []
    else if l ≤ skip then chunkSpans (pos + l) rest (skip - l) n
    else
      let m := min (l - skip) n
      ⟨d + BitVec.ofNat 64 skip, a + BitVec.ofNat 64 skip, m, rowPositions (pos + l) rest⟩ ::
        chunkSpans (pos + l) rest 0 (n - m)

/-- A later row has put its byte at an address: the chunk that holds it is delivered (R343). -/
def writtenLater (chunks : List Progress) (later : List (Nat × Word × Nat)) (va : Word) : Bool :=
  later.any fun r => decide ((va - r.2.1).toNat < r.2.2) && decide (chunks[(r.1 + (va - r.2.1).toNat) / 256]? = some .done)

/-- The bytes of spans that a chunk still puts to memory: of one that a later row has put already, none. -/
def keptBytes (chunks : List Progress) : List Span → Marked → List (Option (Byte × Bool))
  | [], _ => []
  | p :: ps, d =>
    ((d.take p.len).zipIdx.map fun b =>
      if writtenLater chunks p.later (p.dst + BitVec.ofNat 64 b.2) then none else some b.1) ++ keptBytes chunks ps (d.drop p.len)

/-- Another chunk of the copy has a write to some of those bytes of another package that is not answered: the chunk waits
for it, so that the row of highest number stands (R343). -/
def State.chunkClash (s : State) (w : Work) (chunk : Nat) (ps : List Piece) : Bool :=
  s.remote.any fun r => decide (r.status = .sent) &&
    (match r.owner, r.kind with
     | .engine id k, .write d _ => decide (id = w.id) && decide (k ≠ chunk) && ps.any fun p => (match p.place with
         | .away pa => decide (pa < r.pa + d.length) && decide (r.pa < pa + p.len)
         | .here _ => false)
     | _, _ => false)

/-- The bits of a chunk: the governing bits of its element group (R72, R347). -/
def chunkBits (e : Elem) (chunk : Nat) : Mask :=
  let n := 2048 / e.width
  (List.range n).foldl (fun v i => v ||| (1#8192 <<< govBit e.width (chunk * n + i))) 0

/-- The bits of a delivered chunk set in the mask that the copy owns (R347). -/
def State.setChunkBits (s : State) (w : Work) (c : Copy) (chunk : Nat) : State :=
  match c.chunkMask with
  | some (m, _, e) => if c.total = 0 then s else s.setOwnedBits w.id m (chunkBits e chunk)
  | none => s

/-- A chunk is delivered: its bits are set, whether or not the arrival word can still be reached, and its bytes contributed
(R340, R346, R347). -/
def State.chunkDelivered (s : State) (w : Work) (c : Copy) (chunk : Nat) : State :=
  let bytes := min 256 (c.total - 256 * chunk)
  (s.setChunkBits w c chunk).contributeWork w bytes fun t =>
    let chunks := c.chunks.set chunk .done
    let t2 := t.onWork w.id fun v => { v with job := .copy { c with chunks := chunks } }
    if chunks.all fun p => decide (p = .done) then t2.endWork w.id else t2

/-- The error of a staging buffer reported: the first destination byte of the chunk (R350, R414). -/
def State.reportStaging (s : State) (w : Work) (ps : List Piece) : State :=
  let pa := match ps with
    | p :: _ =>
      match p.place with
      | .here l => s.homedPa l
      | .away a => a
    | [] => 0
  s.report 0x0020 (w.stack.setWidth 32) [8, BitVec.ofNat 64 pa, 0xFFFFFFFF]

/-- A chunk moved: read whole, then written but for what a later row has put already (R343, R346, R350). -/
def State.moveChunk (s : State) (w : Work) (c : Copy) (chunk : Nat) : State :=
  let o := Owner.engine w.id chunk
  let spans := chunkSpans 0 c.rows (256 * chunk) (min 256 (c.total - 256 * chunk))
  let from_ := spans.flatMap fun t => spansOf t.src t.len
  let into := spans.flatMap fun t => spansOf t.dst t.len
  match State.enginePlaces w ⟨true, false, false⟩ from_ s with
  | (.error e, s1) => s1.engineStop w chunk chunk 1 e
  | (.ok src, s1) =>
    match State.enginePlaces w ⟨false, true, false⟩ into s1 with
    | (.error e, s2) => s2.engineStop w chunk chunk 2 e
    | (.ok dst, s2) =>
      if s2.chunkClash w chunk dst then s2
      else
      match s2.askPieces o src with
      | (.error e, s3) => s3.engineStop w chunk chunk 1 e
      | (.ok _, s3) =>
        let r := State.engineReads w o src s3
        let bad := s.badStaging.contains (w.id, chunk)
        let data := if bad then r.1.map fun b => (b.1, true) else r.1
        let s4 := if bad then r.2.reportStaging w dst else r.2
        let s5 := State.engineWriteBytes w o dst (keptBytes c.chunks spans data) s4
        if (s5.sentWrites o) = .none then s5.chunkDelivered w c chunk else s5

/-- A chunk of a copy reaches its home (R346): it is delivered, waits, stalls, or aborts the copy. -/
def State.deliverChunk (s0 : State) (id chunk : Nat) : State :=
  match s0.workOf id with
  | some w =>
    match w.job with
    | .copy c =>
      let o := Owner.engine id chunk
      if c.chunks[chunk]? ≠ some .todo ∨ s0.stalled o = true ∨ s0.mayBegin w = false ∨ s0.awHeld w = true then s0
      else
        let s := s0.beginWork id
        match s.sentWrites o with
        | .waiting => s
        | .failed => (s.dropRequests o).abortWork w 4
        | .done => (s.dropRequests o).chunkDelivered w c chunk
        | .none => if c.total = 0 then s.chunkDelivered w c chunk else s.moveChunk w c chunk
    | _ => s0
  | none => s0

/-- The event COPY_CHUNK_DELIVERY (R346). -/
def execCopyChunkDelivery (id chunk : Nat) (s : State) : Host.Outcome State Fault Refusal :=
  .next (s.deliverChunk id chunk)

end Sys2Proof.Machine
end

