-- ==== Sys2Proof/Machine/Fabric.lean ====
section
/-! DEFINITION. Fabric.lean: what comes in over UALink and Spinel, answers and failures of requests, failed links, and the
events of the DRAM scheduler (R251, R321, R334, R335, R389, R396 to R400, R404). -/

namespace Sys2Proof.Machine

/-! ## Requests of other packages (R321, R397) -/

/-- The bytes of a request, in local DRAM: one location range, since a request does not cross a 256-byte boundary. -/
def State.requestLoc (s : State) (pa n : Nat) : Option Nat :=
  if n = 0 ∨ pa / 256 ≠ (pa + n - 1) / 256 then none else s.dramAt pa

/-- A request answered: an error, or what `f` does at the location. -/
def State.serveRequest (s : State) (reply : Bool → List Byte → Message) (pa n : Nat)
    (f : Nat → State → Option (List Byte) × State) : State :=
  match s.requestLoc pa n with
  | none => s.transmit (reply true [])
  | some l =>
    match f l s with
    | (some d, t) => t.transmit (reply false d)
    | (none, t) => t.transmit (reply true [])

/-- A read of a request: data that holds an error is reported and answered with an error. -/
def requestRead (crown : Bool) (n : Nat) (l : Nat) (s : State) : Option (List Byte) × State :=
  let t := s.countAccess crown l n
  if t.readFails l n then (none, t.reportErrors none l n) else (some (t.readLoc l n), t)

/-- A write of a request; data that its sender marks poisoned mark the words they go to (R331). -/
def requestWrite (crown : Bool) (d : List Byte) (bad : Bool) (l : Nat) (s : State) : Option (List Byte) × State :=
  (some [], (s.countAccess crown l d.length).writeMarked l d bad)

/-- The number of an atomic of UALink among those of R107. -/
def uaCode : UaOp → Nat
  | .add => 0
  | .swap => 6
  | .cas => 7

/-- An atomic of a request, performed at the near-memory atomic unit (R325, R397). -/
def requestAtomic (op : UaOp) (w : Nat) (b expected : Word) (l : Nat) (s : State) : Option (List Byte) × State :=
  let t := s.countAccess true l w
  if l % w ≠ 0 then (none, s)
  else if t.readFails l w then (none, t.reportErrors none l w)
  else
    let old := t.readLoc l w
    match atomicNew (uaCode op) w (wordOf old) b expected with
    | some new => (some old, t.writeLoc l (bytesOf new w))
    | none => (some old, t)

/-- UALink carries requests once it is trained and a port is up (R384, R396). -/
def State.ualinkOpen (s : State) : Bool := decide (s.plat.boot = .ready) && decide (s.pkg.ualinkUp ≠ 0)

/-- UALINK_REQUEST_IN (R397). -/
def State.ualinkRequest (s : State) (r : UaRequest) : State :=
  if !s.ualinkOpen then s
  else
    match r with
    | .read tag pa n => s.serveRequest (.uaResponse tag) pa n (requestRead true n)
    | .write tag pa d bad => s.serveRequest (.uaResponse tag) pa d.length (requestWrite true d bad)
    | .atomic tag op pa wide b e =>
      s.serveRequest (.uaResponse tag) pa (if wide then 8 else 4) (requestAtomic op (if wide then 8 else 4) b e)
    | .unsupported tag => s.transmit (.uaResponse tag true [])

/-- UALINK_REQUEST_IN (R397). -/
def execUalinkRequestIn (r : UaRequest) (s : State) : Host.Outcome State Fault Refusal := .next (s.ualinkRequest r)

/-! ## Answers (R397, R399) -/

/-- The bytes of a good answer. -/
def RemoteKind.answerOk (k : RemoteKind) (d : List Byte) : Bool :=
  match k with
  | .read n => decide (d.length = n)
  | .write _ _ => true
  | .atomic _ wide _ _ => decide (d.length = if wide then 8 else 4)
  | .update old _ _ => decide (d.length = old.length)

/-- A request that nothing waits to take: a store of a hart, or of a hart that has left its farm, or a request of work that
is gone. -/
def RemoteRequest.store (r : RemoteRequest) : Bool :=
  match r.kind, r.owner with
  | _, .gone => true
  | .write _ _, .hart _ => true
  | .write _ _, .brim _ => true
  | .write _ _, .farm _ => true
  | _, _ => false

/-- A request forgotten. -/
def State.dropRequest (s : State) (id : Nat) : State := { s with remote := s.remote.filter fun r => decide (r.id ≠ id) }

/-- How a request stands changed. -/
def State.setRequest (s : State) (id : Nat) (st : RemoteStatus) : State :=
  let f (r : RemoteRequest) : RemoteRequest := if r.id = id then { r with status := st } else r
  { s with remote := s.remote.map f }

/-- A request has failed (R399). -/
def State.failRequest (s : State) (r : RemoteRequest) : State :=
  let t := s.reportFailed r.subject r.pa
  if r.store then (t.dropRequest r.id).noteFailed r.owner r.va else t.setRequest r.id .failed

/-- A request has its answer. -/
def State.answerRequest (s : State) (r : RemoteRequest) (d : List Byte) : State :=
  if r.store then s.dropRequest r.id else s.setRequest r.id (.answered d)

/-- A request that waits for its answer. -/
def State.sentRequest (s : State) (id : Nat) : Option RemoteRequest :=
  s.remote.find? fun r => decide (r.id = id) && decide (r.status = .sent)

/-- A request of a brim goes over Spinel, any other over UALink (R321, R397). -/
def RemoteRequest.spinel (r : RemoteRequest) : Bool :=
  match r.owner with
  | .brim _ => true
  | _ => false

/-- The outcome of a request that went over one of the two links. -/
def State.settleRequest (s : State) (spinel : Bool) (id : Nat) (d : Option (List Byte)) : State :=
  match s.sentRequest id with
  | some r =>
    if r.spinel != spinel then s
    else
      match d with
      | none => s.failRequest r
      | some d => if r.kind.answerOk d then s.answerRequest r d else s
  | none => s

/-- UALINK_RESPONSE (R397, R399). -/
def execUalinkResponse (id : Nat) (failed : Bool) (data : List Byte) (s : State) : Host.Outcome State Fault Refusal :=
  .next (s.settleRequest false id (if failed then none else some data))

/-- UALINK_REQUEST_TIMEOUT (R399). -/
def execUalinkRequestTimeout (id : Nat) (s : State) : Host.Outcome State Fault Refusal :=
  .next (s.settleRequest false id none)

/-! ## Spinel (R321, R404) -/

/-- A segment of another rank's part in a collective kept until it is matched; a later one of the same rank and number
replaces it. -/
def State.keepPart (s : State) (g : Byte) (name ordinal : Nat) (d : RankData) : State :=
  let same (r : BitVec 8 × Nat × Nat × RankData) : Bool :=
    r.1 == g && decide (r.2.1 = name) && decide (r.2.2.1 = ordinal) && decide (r.2.2.2.rank = d.rank) && decide (r.2.2.2.seg = d.seg)
  { s with ranks := (s.ranks.filter fun r => !same r) ++ [(g, name, ordinal, d)] }

/-- A number that is no rank, for an abort that names none. -/
def noRank : Nat := 4096

/-- SPINEL_REQUEST_IN (R321, R404): nothing comes in at a fabric of one, with no port up (R16). -/
def State.spinelRequest (s : State) (r : SpinelRequest) : State :=
  if s.plat.boot ≠ .ready ∨ s.pkg.spinelUp = 0 then s
  else
    match r with
    | .read tag pa n => s.serveRequest (.spinelResponse tag) pa n (requestRead false n)
    | .write tag pa d bad => s.serveRequest (.spinelResponse tag) pa d.length (requestWrite false d bad)
    | .collective g name ordinal rank op bytes fmt seg buffer =>
      s.keepPart g name ordinal ⟨rank, op, bytes, fmt, seg, buffer, none⟩
    | .collectiveAbort g name ordinal cause => s.keepPart g name ordinal ⟨noRank, 0, 0, 0, 0, [], some cause⟩
    | .reply id d => s.settleRequest true id d

/-- SPINEL_REQUEST_IN (R321). -/
def execSpinelRequestIn (r : SpinelRequest) (s : State) : Host.Outcome State Fault Refusal := .next (s.spinelRequest r)

/-! ## Failed links (R251, R389, R396, R400) -/

/-- A link failed or degraded (R395): 0 UALink, 1 Spinel, 2 cluster, 3 crown-to-stack. -/
def State.reportLink (s : State) (subject : BitVec 32) (code : Word) : State := s.report 0x0022 subject [code]

/-- UALINK_LANE_FAILURE (R396): a port with two or three working lanes runs at x2, one with fewer is down. -/
def State.loseLane (s : State) (port : Nat) (lane : BitVec 2) : State :=
  let old := s.plat.lanesLost.toList.getD port 0
  let new := old ||| (1 <<< lane.toNat)
  if 18 ≤ port ∨ old = new then s
  else
    let t := s.onPlat fun p => { p with lanesLost := p.lanesLost.setIfInBounds port new }
    let b : BitVec 18 := 1 <<< port
    let subject := BitVec.ofNat 32 port
    if s.pkg.ualinkUp &&& b = 0 then t
    else if 2 < lanesOut new then
      { t with pkg := { t.pkg with ualinkUp := t.pkg.ualinkUp &&& ~~~b, ualinkX2 := t.pkg.ualinkX2 &&& ~~~b } }.reportLink subject 0
    else if s.pkg.ualinkX2 &&& b = 0 then
      { t with pkg := { t.pkg with ualinkX2 := t.pkg.ualinkX2 ||| b } }.reportLink subject 0
    else t

/-- UALINK_LANE_FAILURE (R396). -/
def execUalinkLaneFailure (port : BitVec 5) (lane : BitVec 2) (s : State) : Host.Outcome State Fault Refusal :=
  .next (s.loseLane port.toNat lane)

/-- A link of the in-package torus fails, and stays down until package reset (R400). The spec does not say how its EVENT
names the port: a free value (assumption log 93). -/
def State.failTorusLink (s : State) (t : BitVec 4) (d : BitVec 2) : State :=
  if s.torusDown.contains (t, d) then s
  else ({ s with torusDown := s.torusDown ++ [(t, d)] }).draw.reportLink (BitVec.ofNat 32 (Config.choice s.draws)) 1

/-- SPINEL_LINK_FAILED (R400): the port stays down until package reset. -/
def execSpinelLinkFailed (port : BitVec 3) (s : State) : Host.Outcome State Fault Refusal :=
  .next
    (let b : BitVec 8 := 1 <<< port.toNat
     if s.pkg.spinelUp &&& b = 0 then s
     else { s with pkg := { s.pkg with spinelUp := s.pkg.spinelUp &&& ~~~b } }.reportLink (port.setWidth 32) 1)

/-- A posted store of the current hart goes over the link to a core's scratchpad. -/
def State.storeOver (s : State) (p : PostedStore) (core : BitVec 7) : Bool :=
  (s.storeLoc p).any fun l => decide (scratchBase core.toNat ≤ l) && decide (l < scratchBase core.toNat + scratchBytes)

/-- The stores that harts of one core have posted to the scratchpad of another dropped: they were accepted over the link
and not performed when it failed (R251). -/
def State.dropOver (s : State) (src dst : BitVec 7) : State :=
  s.harts.foldl (fun t h =>
    if coreOf h.id = src then withHart h.id (fun u => u.onHart fun k =>
      { k with stores := k.stores.filter fun p => !u.storeOver p dst }) t
    else t) s

/-- The link between two cores of a cluster has failed: it is marked and reported, what it had accepted and not performed
is lost, and a cluster-placed farm that runs there fails (R251). -/
def State.failClusterLink (s : State) (cl : BitVec 5) (a b : BitVec 2) : State :=
  if a = b ∨ s.linkDown cl a b = true then s
  else
    let pair := if a.toNat ≤ b.toNat then (a, b) else (b, a)
    let t := (((s.dropOver (cl ++ a) (cl ++ b)).dropOver (cl ++ b) (cl ++ a)).onCluster cl fun k =>
      { k with failedLinks := k.failedLinks ++ [pair] }).reportLink (cl.setWidth 32) 2
    match (s.clusters[cl.toNat]'cl.isLt).owner with
    | some e => t.markFailing e 2 noSubject
    | none => t

/-- CLUSTER_LINK_FAILED (R251). -/
def execClusterLinkFailed (cl : BitVec 5) (a b : BitVec 2) (s : State) : Host.Outcome State Fault Refusal :=
  .next (s.failClusterLink cl a b)

/-- CROWN_TO_STACK_LINK_FAILED (R389, R395). -/
def execCrownToStackLinkFailed (st : BitVec 4) (s : State) : Host.Outcome State Fault Refusal :=
  .next (if (s.stackAt st).linkFailed then s
    else (s.onStack st fun k => { k with linkFailed := true }).reportLink (st.setWidth 32) 3)

/-! ## The DRAM scheduler (R334, R335) -/

/-- DRAM_RATIO_CHANGE (R334): it changes only time, and is counted. -/
def execDramRatioChange (st : BitVec 4) (s : State) : Host.Outcome State Fault Refusal :=
  .next (s.onStack st fun k => { k with ratioChanges := satAdd k.ratioChanges 1 })

/-- CROWN_LATENCY_TARGET (R335): where a burst needs exactly one command more, the deferral is counted. -/
def execCrownLatencyTarget (st : BitVec 4) (oneLeft : Bool) (s : State) : Host.Outcome State Fault Refusal :=
  .next (if oneLeft then s.onStack st fun k => { k with deferrals := satAdd k.deferrals 1 } else s)

end Sys2Proof.Machine
end

