-- ==== Sys2Proof/Machine/Fences.lean ====
section
/-! DEFINITION. Fences.lean: the fences, `fence.stk` and `icsync` (R166 to R168, R192). A fence waits for the convoys, and so for
their lateral stores, and leaves only the posted stores to perform (assumption log 13). -/

namespace Sys2Proof.Machine

/-- A fence of the scope that has nothing left to wait for (R166, R399). -/
def State.fenceNow (s : State) (sc : BitVec 4) : State := s.afterRelease sc fun t => t.complete 4 fun u => u

/-- Every earlier convoy of both kinds has performed its accesses, one that was dropped with committed groups among them
(R166, R167, R329). -/
def State.fenced (s : State) (sc : BitVec 4) : Bool := s.released sc && s.hart.brimConvoys.isEmpty && !s.brimAway

/-- `fenceSv` performed (R166). -/
def fenceSvNow (sc : BitVec 4) (s : State) : State :=
  s.fenceNow sc

/-- `fenceSv` (R166). -/
def execFenceSv (sc : BitVec 4) (s : State) : Host.Outcome State Fault Refusal :=
  .next (s.start (.fenceSv sc) [] (s.released sc) (fenceSvNow sc s))

/-- `fenceVs` performed (R166). -/
def fenceVsNow (sc : BitVec 4) (s : State) : State :=
  s.fenceNow sc

/-- `fenceVs` (R166). -/
def execFenceVs (sc : BitVec 4) (s : State) : Host.Outcome State Fault Refusal :=
  .next (s.start (.fenceVs sc) [] (s.released sc) (fenceVsNow sc s))

/-- `fenceVv` performed (R166). -/
def fenceVvNow (sc : BitVec 4) (s : State) : State :=
  s.fenceNow sc

/-- `fenceVv` (R166). -/
def execFenceVv (sc : BitVec 4) (s : State) : Host.Outcome State Fault Refusal :=
  .next (s.start (.fenceVv sc) [] (s.released sc) (fenceVvNow sc s))

/-- `fenceAll` performed (R166). -/
def fenceAllNow (sc : BitVec 4) (s : State) : State :=
  s.fenceNow sc

/-- `fenceAll` (R166). -/
def execFenceAll (sc : BitVec 4) (s : State) : Host.Outcome State Fault Refusal :=
  .next (s.start (.fenceAll sc) [] (s.fenced sc) (fenceAllNow sc s))

/-- `fenceStk` performed (R167). -/
def fenceStkNow (_n : BitVec 4) (s : State) : State :=
  s.fenceNow 0

/-- `fenceStk` (R167). -/
def execFenceStk (n : BitVec 4) (s : State) : Host.Outcome State Fault Refusal :=
  .next (s.start (.fenceStk n) [] (s.fenced 0) (fenceStkNow n s))

/-- The cores whose harts a scope holds for instruction fetch (R158, R168). -/
def coresIn (sc : BitVec 4) (own core : Nat) : Bool :=
  match sc.toNat with
  | 0 => decide (core = own)
  | 1 => decide (core = own)
  | 2 => decide (core / 4 = own / 4)
  | 3 => decide (core / 32 = own / 32)
  | _ => true

/-- Instruction-cache blocks of the scope's cores dropped (R168). -/
def State.dropBlocks (s : State) (sc : BitVec 4) : State :=
  { s with cores := Vector.ofFn fun k : Fin 128 =>
      if coresIn sc (coreOf s.hart.id).toNat k.val then { s.cores[k] with icache := [] } else s.cores[k] }

/-- From pod scope on the other packages of the pod are told, and do the same (R168, R184). The spec does not say whether
the `icsync` completes before they have: it does here (assumption log 108). -/
def State.tellPod (s : State) (sc : BitVec 4) : State := if 8 ≤ sc.toNat then s.transmit .podIcsync else s

/-- An `icsync` of another package of the pod: every block of this package is dropped (R168, R184). -/
def State.podIcsync (s : State) : State := { s with cores := s.cores.map fun k => { k with icache := [] } }

/-- `icsync` performed (R168). -/
def icsyncNow (sc : BitVec 4) (s : State) : State :=
  s.performStores.complete 4 fun t => (t.dropBlocks sc).tellPod sc

/-- `icsync` may be performed: the hart's writes can be made visible, so the crown loads before them have come (R163), and
its stores to other packages have their answers (R184, R397). -/
def State.icsyncReady (s : State) : Bool := !s.hart.loading && !s.storesAway

/-- `icsync` (R168). -/
def execIcsync (sc : BitVec 4) (s : State) : Host.Outcome State Fault Refusal :=
  .next (s.start (.icsync sc) [] s.icsyncReady (icsyncNow sc s))

end Sys2Proof.Machine
end

