-- ==== Sys2Proof/Machine/LoadStore.lean ====
section
/-! DEFINITION. LoadStore.lean: scalar loads and stores, acquire loads and release stores (R98 to R100, R164). A load
waits for its data and for its walk; a store is posted (R100). -/

namespace Sys2Proof.Machine

/-- A load of `n` bytes into an x register; `conv` is the extension of R98. -/
def State.loadTo (s : State) (i : Instr) (len : Nat) (d : BitVec 5) (va : Word) (n : Nat) (conv : Word → Word) : State :=
  s.accessing (some i) len (s.scalarReach true ⟨true, false, false⟩ false va n n) (s.scalarLoad va n)
    fun v t => t.setX d (conv v)

/-- A store of `n` bytes from an x register. -/
def State.storeFrom (s : State) (len : Nat) (xs : List (BitVec 5)) (va : Word) (n : Nat) (w : Word) : State :=
  if s.hart.busyX xs then s
  else
    s.accessing none len (s.scalarReach false ⟨false, true, false⟩ false va n n) (s.scalarStore false va n w)
      fun _ t => t

/-- `ldB` performed (R98). -/
def ldBNow (d a : BitVec 5) (imm : BitVec 10) (s : State) : State :=
  s.loadTo (.ldB d a imm) 4 d (memAddr (s.x a) imm) 1 (sextFrom 8)

/-- `ldB` (R98). -/
def execLdB (d a : BitVec 5) (imm : BitVec 10) (s : State) : Host.Outcome State Fault Refusal :=
  .next (s.start (.ldB d a imm) [d, a] true (ldBNow d a imm s))

/-- `ldBn` performed (R98). -/
def ldBnNow (d a : BitVec 5) (imm : BitVec 10) (s : State) : State :=
  s.loadTo (.ldBn d a imm) 4 d (memAddr (s.x a) imm) 1 id

/-- `ldBn` (R98). -/
def execLdBn (d a : BitVec 5) (imm : BitVec 10) (s : State) : Host.Outcome State Fault Refusal :=
  .next (s.start (.ldBn d a imm) [d, a] true (ldBnNow d a imm s))

/-- `ldH` performed (R98). -/
def ldHNow (d a : BitVec 5) (imm : BitVec 10) (s : State) : State :=
  s.loadTo (.ldH d a imm) 4 d (memAddr (s.x a) imm) 2 (sextFrom 16)

/-- `ldH` (R98). -/
def execLdH (d a : BitVec 5) (imm : BitVec 10) (s : State) : Host.Outcome State Fault Refusal :=
  .next (s.start (.ldH d a imm) [d, a] true (ldHNow d a imm s))

/-- `ldHn` performed (R98). -/
def ldHnNow (d a : BitVec 5) (imm : BitVec 10) (s : State) : State :=
  s.loadTo (.ldHn d a imm) 4 d (memAddr (s.x a) imm) 2 id

/-- `ldHn` (R98). -/
def execLdHn (d a : BitVec 5) (imm : BitVec 10) (s : State) : Host.Outcome State Fault Refusal :=
  .next (s.start (.ldHn d a imm) [d, a] true (ldHnNow d a imm s))

/-- `ldW` performed (R98). -/
def ldWNow (d a : BitVec 5) (imm : BitVec 10) (s : State) : State :=
  s.loadTo (.ldW d a imm) 4 d (memAddr (s.x a) imm) 4 (sextFrom 32)

/-- `ldW` (R98). -/
def execLdW (d a : BitVec 5) (imm : BitVec 10) (s : State) : Host.Outcome State Fault Refusal :=
  .next (s.start (.ldW d a imm) [d, a] true (ldWNow d a imm s))

/-- `ldWn` performed (R98). -/
def ldWnNow (d a : BitVec 5) (imm : BitVec 10) (s : State) : State :=
  s.loadTo (.ldWn d a imm) 4 d (memAddr (s.x a) imm) 4 id

/-- `ldWn` (R98). -/
def execLdWn (d a : BitVec 5) (imm : BitVec 10) (s : State) : Host.Outcome State Fault Refusal :=
  .next (s.start (.ldWn d a imm) [d, a] true (ldWnNow d a imm s))

/-- `ldD` performed (R98). -/
def ldDNow (d a : BitVec 5) (imm : BitVec 10) (s : State) : State :=
  s.loadTo (.ldD d a imm) 4 d (memAddr (s.x a) imm) 8 id

/-- `ldD` (R98). -/
def execLdD (d a : BitVec 5) (imm : BitVec 10) (s : State) : Host.Outcome State Fault Refusal :=
  .next (s.start (.ldD d a imm) [d, a] true (ldDNow d a imm s))

/-- `cLdW` performed (R46). -/
def cLdWNow (d a : BitVec 3) (imm : BitVec 5) (s : State) : State :=
  s.loadTo (.cLdW d a imm) 2 (cReg d) (s.x (cReg a) + zext imm <<< 2) 4 (sextFrom 32)

/-- `cLdW` (R46). -/
def execCLdW (d a : BitVec 3) (imm : BitVec 5) (s : State) : Host.Outcome State Fault Refusal :=
  .next (s.start (.cLdW d a imm) [cReg d, cReg a] true (cLdWNow d a imm s))

/-- `cLdD` performed (R46). -/
def cLdDNow (d : BitVec 3) (imm : BitVec 6) (s : State) : State :=
  s.loadTo (.cLdD d imm) 2 (cReg d) (s.x 30 + zext imm <<< 3) 8 id

/-- `cLdD` (R46). -/
def execCLdD (d : BitVec 3) (imm : BitVec 6) (s : State) : Host.Outcome State Fault Refusal :=
  .next (s.start (.cLdD d imm) [cReg d, 30] true (cLdDNow d imm s))

/-! ## Stores -/

/-- `stB` (R98). -/
def execStB (b a : BitVec 5) (imm : BitVec 10) (s : State) : Host.Outcome State Fault Refusal :=
  .next (s.storeFrom 4 [b, a] (memAddr (s.x a) imm) 1 (s.x b))

/-- `stH` (R98). -/
def execStH (b a : BitVec 5) (imm : BitVec 10) (s : State) : Host.Outcome State Fault Refusal :=
  .next (s.storeFrom 4 [b, a] (memAddr (s.x a) imm) 2 (s.x b))

/-- `stW` (R98). -/
def execStW (b a : BitVec 5) (imm : BitVec 10) (s : State) : Host.Outcome State Fault Refusal :=
  .next (s.storeFrom 4 [b, a] (memAddr (s.x a) imm) 4 (s.x b))

/-- `stD` (R98). -/
def execStD (b a : BitVec 5) (imm : BitVec 10) (s : State) : Host.Outcome State Fault Refusal :=
  .next (s.storeFrom 4 [b, a] (memAddr (s.x a) imm) 8 (s.x b))

/-- `cStW` (R46). -/
def execCStW (b a : BitVec 3) (imm : BitVec 5) (s : State) : Host.Outcome State Fault Refusal :=
  .next (s.storeFrom 2 [cReg b, cReg a] (s.x (cReg a) + zext imm <<< 2) 4 (s.x (cReg b)))

/-- `cStD` (R46). -/
def execCStD (b : BitVec 3) (imm : BitVec 6) (s : State) : Host.Outcome State Fault Refusal :=
  .next (s.storeFrom 2 [cReg b, 30] (s.x 30 + zext imm <<< 3) 8 (s.x (cReg b)))

/-! ## Acquire and release (R164) -/

/-- `ldAcqW` performed (R164). -/
def ldAcqWNow (d a : BitVec 5) (sc : BitVec 4) (s : State) : State :=
  s.loadTo (.ldAcqW d a sc) 4 d (s.x a) 4 (sextFrom 32)

/-- `ldAcqW` (R164). -/
def execLdAcqW (d a : BitVec 5) (sc : BitVec 4) (s : State) : Host.Outcome State Fault Refusal :=
  .next (s.start (.ldAcqW d a sc) [d, a] true (ldAcqWNow d a sc s))

/-- `ldAcqD` performed (R164). -/
def ldAcqDNow (d a : BitVec 5) (sc : BitVec 4) (s : State) : State :=
  s.loadTo (.ldAcqD d a sc) 4 d (s.x a) 8 id

/-- `ldAcqD` (R164). -/
def execLdAcqD (d a : BitVec 5) (sc : BitVec 4) (s : State) : Host.Outcome State Fault Refusal :=
  .next (s.start (.ldAcqD d a sc) [d, a] true (ldAcqDNow d a sc s))

/-- A release store: every crown-agent access before it is performed, then its write (R164). -/
def State.releaseStore (s : State) (i : Instr) (sc : BitVec 4) (va : Word) (n : Nat) (w : Word) : State :=
  s.afterRelease sc fun t =>
    s.accessing (some i) 4 (s.scalarReach true ⟨false, true, false⟩ false va n n) (t.scalarStore true va n w)
      fun _ u => u.performStores

/-- `stRelW` performed (R164). -/
def stRelWNow (b a : BitVec 5) (sc : BitVec 4) (s : State) : State :=
  s.releaseStore (.stRelW b a sc) sc (s.x a) 4 (s.x b)

/-- `stRelW` (R164). -/
def execStRelW (b a : BitVec 5) (sc : BitVec 4) (s : State) : Host.Outcome State Fault Refusal :=
  .next (s.start (.stRelW b a sc) [b, a] (s.released sc) (stRelWNow b a sc s))

/-- `stRelD` performed (R164). -/
def stRelDNow (b a : BitVec 5) (sc : BitVec 4) (s : State) : State :=
  s.releaseStore (.stRelD b a sc) sc (s.x a) 8 (s.x b)

/-- `stRelD` (R164). -/
def execStRelD (b a : BitVec 5) (sc : BitVec 4) (s : State) : Host.Outcome State Fault Refusal :=
  .next (s.start (.stRelD b a sc) [b, a] (s.released sc) (stRelDNow b a sc s))

end Sys2Proof.Machine
end

