-- ==== Sys2Proof/Machine/Matrix.lean ====
section
/-! DEFINITION. Matrix.lean: `mshape`, `msync`, and the posting of the other matrix instructions (R217, R218, R223 to
R230). What a posted entry does is in Tile.lean. -/

namespace Sys2Proof.Machine

/-! ## Formats (R217) -/

/-- The format code of the floating format that SEW and ALT select. -/
def Elem.fmtCode : Elem → BitVec 4
  | .fp64 => 0
  | .fp32 => 1
  | .fp16 => 2
  | .bf16 => 3
  | .e4m3 => 4
  | .e5m2 => 5
  | .e2m1 => 6

/-- MSHP.INT. -/
def Csrs.int (c : Csrs) : Bool := bit c.mshp 16

/-- M and N of MSHP (R214). -/
def Csrs.rows (c : Csrs) : Nat := (field c.mshp 0 6).toNat + 1
/-- N of MSHP (R214). -/
def Csrs.cols (c : Csrs) : Nat := (field c.mshp 8 6).toNat + 1

/-- A format code resolved: code 0 is "as VCFG". Code 0 stays where nothing fits. -/
def Hart.resolve (h : Hart) (f : BitVec 4) : BitVec 4 :=
  if f ≠ 0 then f
  else if h.csr.int then (if h.elem.width = 8 then 8 else 0)
  else h.elem.fmtCode

/-- A resolved pair fits: the tile kind takes both, their widths agree, and the kind of instruction takes them. -/
def formatsFit (op : MatrixOp) (int : Bool) (fa fb : BitVec 4) : Bool :=
  let among (l : List (BitVec 4)) := l.contains fa && l.contains fb
  let kinds := if int then among [8] else among [1, 2, 3, 4, 5, 6]
  kinds && decide ((fmtOf fa).width = (fmtOf fb).width) &&
    (match op with
     | .mmas => !int && decide (fa ≠ 1)
     | .mmax => !int && among [4, 5, 6]
     | _ => true)

/-! ## Posting (R218) -/

/-- An octet that begins at a register exists: the register begins one, and all eight are declared. -/
def Count.octet (c : Count) (vb : Nat) : Bool := decide (vb % 8 = 0) && decide (vb + 7 < c.regs)

/-- The entry that posting captures. -/
def Hart.entry (h : Hart) (op : MatrixOp) (t : BitVec 1) (va vb vx : BitVec 5) (fa fb : BitVec 4)
    (neg sat ovw : BitVec 1) (xs : Word) : MatrixEntry where
  op := op
  tile := t
  va := va
  vb := vb
  vx := vx
  fa := h.resolve fa
  fb := h.resolve fb
  m := h.csr.rows
  n := h.csr.cols
  int := h.csr.int
  neg := decide (neg = 1)
  sat := decide (sat = 1)
  ovw := decide (ovw = 1)
  xs := xs
  count := h.count
  rows := []
  order := h.issued

/-- The checks of `mmag` on its octets and counts (R228). -/
def MatrixEntry.raggedOk (e : MatrixEntry) : Bool :=
  decide (e.vb.toNat % 8 = 0) && decide (field e.xs 48 16 = 0) && decide ((rowCounts e.xs).sum ≤ e.m) &&
    ((ragged e.vb.toNat e.xs).all fun g => decide (g.2.2 = 0) || e.count.octet g.1)

/-- The rows of `mtv` and `mvt` exist (R229). -/
def MatrixEntry.rowsOk (e : MatrixEntry) : Bool := decide (e.xs.toNat + e.count.groups ≤ 64)

/-- The checks at posting (R218, R228, R229). -/
def MatrixEntry.checked (e : MatrixEntry) : Bool :=
  match e.op with
  | .zero => true
  | .mma => formatsFit e.op e.int e.fa e.fb && e.count.octet e.vb.toNat
  | .mmas => formatsFit e.op e.int e.fa e.fb && e.count.octet e.vb.toNat
  | .mmax => formatsFit e.op e.int e.fa e.fb && e.count.octet e.vb.toNat
  | .mmag => formatsFit e.op e.int e.fa e.fb && e.raggedOk
  | .mtv => e.rowsOk
  | .mvt => e.rowsOk

/-- The matrix queue has a free entry of its 32 (R218). -/
def Hart.queueFree (h : Hart) : Bool := decide (h.queue.length < 32)

/-- An entry joins the queue; the progress index of the destination of `mtv` is set to 0 (R229). -/
def Hart.enqueue (h : Hart) (e : MatrixEntry) : Hart :=
  let h1 := { h with queue := h.queue ++ [e] }
  match e.op with
  | .mtv => h1.setProgress [e.va.toNat] 0
  | _ => h1

/-- A matrix instruction is posted, or raises ILLEGAL for an undeclared register it names, or SHAPE (R43, R218). -/
def State.post (s : State) (named : List (BitVec 5)) (e : MatrixEntry) : State :=
  if !s.hart.count.declares (named.map BitVec.toNat) then s.refuse .illegal s.hart.pc
  else if !e.checked then s.refuse .shape s.hart.pc
  else (s.complete 8 fun t => t.onHart fun h => h.enqueue e).settleWork

/-! ## The instructions -/

/-- `mshape` performed (R223). -/
def mshapeNow (xs : BitVec 5) (s : State) : State :=
  if s.x xs &&& ~~~0x13F3F ≠ 0 then s.refuse .shape s.hart.pc
  else s.complete 8 fun t => t.onCsr fun c => { c with mshp := s.x xs }

/-- `mshape` (R223): it waits until no convoy of the hart is in flight. -/
def execMshape (xs : BitVec 5) (s : State) : Host.Outcome State Fault Refusal :=
  .next (s.start (.mshape xs) [xs] s.hart.still (mshapeNow xs s))

/-- `mzero` posted (R224). -/
def mzeroNow (t : BitVec 1) (s : State) : State :=
  s.post [] (s.hart.entry .zero t 0 0 0 0 0 0 0 0 0)

/-- `mzero` (R224). -/
def execMzero (t : BitVec 1) (s : State) : Host.Outcome State Fault Refusal :=
  .next (s.start (.mzero t) [] s.hart.queueFree (mzeroNow t s))

/-- `mma` posted (R225). -/
def mmaNow (t : BitVec 1) (va vb : BitVec 5) (fa fb : BitVec 4) (neg sat ovw : BitVec 1) (s : State) : State :=
  s.post [va, vb] (s.hart.entry .mma t va vb 0 fa fb neg sat ovw 0)

/-- `mma` (R225). -/
def execMma (t : BitVec 1) (va vb : BitVec 5) (fa fb : BitVec 4) (neg sat ovw : BitVec 1) (s : State) :
    Host.Outcome State Fault Refusal :=
  .next (s.start (.mma t va vb fa fb neg sat ovw) [] s.hart.queueFree (mmaNow t va vb fa fb neg sat ovw s))

/-- `mmas` posted (R226). -/
def mmasNow (t : BitVec 1) (va vb vx : BitVec 5) (fa fb : BitVec 4) (neg sat ovw : BitVec 1) (s : State) : State :=
  s.post [va, vb, vx] (s.hart.entry .mmas t va vb vx fa fb neg sat ovw 0)

/-- `mmas` (R226). -/
def execMmas (t : BitVec 1) (va vb vx : BitVec 5) (fa fb : BitVec 4) (neg sat ovw : BitVec 1) (s : State) :
    Host.Outcome State Fault Refusal :=
  .next (s.start (.mmas t va vb vx fa fb neg sat ovw) [] s.hart.queueFree (mmasNow t va vb vx fa fb neg sat ovw s))

/-- `mmag` posted (R228). -/
def mmagNow (t : BitVec 1) (va vb xs : BitVec 5) (fa fb : BitVec 4) (neg sat ovw : BitVec 1) (s : State) : State :=
  s.post [va, vb] (s.hart.entry .mmag t va vb 0 fa fb neg sat ovw (s.x xs))

/-- `mmag` (R228). -/
def execMmag (t : BitVec 1) (va vb xs : BitVec 5) (fa fb : BitVec 4) (neg sat ovw : BitVec 1) (s : State) :
    Host.Outcome State Fault Refusal :=
  .next (s.start (.mmag t va vb xs fa fb neg sat ovw) [xs] s.hart.queueFree (mmagNow t va vb xs fa fb neg sat ovw s))

/-- `mmax` posted (R227). -/
def mmaxNow (t : BitVec 1) (va vb vx : BitVec 5) (fa fb : BitVec 4) (neg sat ovw : BitVec 1) (s : State) : State :=
  s.post [va, vb, vx] (s.hart.entry .mmax t va vb vx fa fb neg sat ovw 0)

/-- `mmax` (R227). -/
def execMmax (t : BitVec 1) (va vb vx : BitVec 5) (fa fb : BitVec 4) (neg sat ovw : BitVec 1) (s : State) :
    Host.Outcome State Fault Refusal :=
  .next (s.start (.mmax t va vb vx fa fb neg sat ovw) [] s.hart.queueFree (mmaxNow t va vb vx fa fb neg sat ovw s))

/-- The rows that `mtv` reads before it is posted (R229). -/
def Hart.tileRows (h : Hart) (t : BitVec 1) (r : Nat) : List Group := tabulate h.count.groups fun i => h.tileRow t (r + i)

/-- A parity error in the rows that `mtv` reads, each recorded, sets the poison flag of the tile (R229, R231). -/
def State.checkRows (s : State) (t : BitVec 1) (r : Nat) : State :=
  s.poisonFrom t (((List.range s.hart.count.groups).filter fun i => s.hart.badRow t (r + i)).map fun _ =>
    (64 + t.toNat, noElement))

/-- `mtv` posted (R229). -/
def mtvNow (va : BitVec 5) (t : BitVec 1) (xs : BitVec 5) (s : State) : State :=
  let e := s.hart.entry .mtv t va 0 0 0 0 0 0 0 (s.x xs)
  let s1 := if s.hart.count.declares [va.toNat] && e.checked then s.checkRows t (s.x xs).toNat else s
  match (if s.hart.count.declares [va.toNat] && e.checked then s1.hart.tilePoison[t.toNat]'t.isLt else none) with
  | some o => s.stopAt s1 ⟨.poison, s.hart.pc, o.reg, 0, o.elem⟩
  | none => s1.post [va] { e with rows := s1.hart.tileRows t (s.x xs).toNat }

/-- `mtv` may be posted: no convoy is in flight and no entry on its tile is queued (R229). -/
def Hart.mtvReady (h : Hart) (t : BitVec 1) : Bool :=
  h.queueFree && h.still && !(h.queue.any fun e => decide (e.tile = t))

/-- `mtv` (R229). -/
def execMtv (va : BitVec 5) (t : BitVec 1) (xs : BitVec 5) (s : State) : Host.Outcome State Fault Refusal :=
  .next (s.start (.mtv va t xs) [xs] (s.hart.mtvReady t) (mtvNow va t xs s))

/-- `mvt` posted (R229). -/
def mvtNow (t : BitVec 1) (va xs : BitVec 5) (s : State) : State :=
  s.post [va] (s.hart.entry .mvt t va 0 0 0 0 0 0 0 (s.x xs))

/-- `mvt` (R229). -/
def execMvt (t : BitVec 1) (va xs : BitVec 5) (s : State) : Host.Outcome State Fault Refusal :=
  .next (s.start (.mvt t va xs) [xs] s.hart.queueFree (mvtNow t va xs s))

/-- `msync` performed (R230). -/
def msyncNow (s : State) : State := s.complete 8 fun t => t

/-- `msync` (R230): it waits until the queue is empty. -/
def execMsync (s : State) : Host.Outcome State Fault Refusal :=
  .next (s.start .msync [] s.hart.queue.isEmpty (msyncNow s))

end Sys2Proof.Machine
end

