-- ==== Sys2Proof/Machine/System.lean ====
section
/-! DEFINITION. System.lean: `ecall`, `ebreak`, `eret`, `uret`, `pause`, `vcfg`, `bsync`, bytes that are no instruction,
and a fetch that fails (R42, R43, R71, R114 to R117, R170, R274, R326). -/

namespace Sys2Proof.Machine

/-! ## Calls and breakpoints (R114) -/

/-- An instruction that completes and then traps: the hardware loops count first. The trap records the next address. -/
def State.completeTrap (s : State) (len : Nat) (c : Cause) : State :=
  let r := s.hart.csr.fallThrough s.hart.pc (s.nextPc len)
  s.goingOn len (s.stopAt (s.onCsr fun _ => r.2) ⟨c, r.1, s.hart.pc, 0, noElement⟩)

/-- `ecall` (R114). -/
def execEcall (s : State) : Host.Outcome State Fault Refusal :=
  .next (s.completeTrap 4 (if s.hart.mode = .user then .ecallU else .ecallS))

/-- `ebreak` (R114). -/
def execEbreak (s : State) : Host.Outcome State Fault Refusal := .next (s.completeTrap 4 .break)

/-- `c.ebreak` (R46, R114). -/
def execCEbreak (s : State) : Host.Outcome State Fault Refusal := .next (s.completeTrap 2 .break)

/-! ## Returns (R115) -/

/-- `eret` (R115): the target is checked as the restored mode fetches it. -/
def execEret (s : State) : Host.Outcome State Fault Refusal :=
  .next (if s.hart.mode = .user then s.refuse .illegal s.hart.pc
    else s.going ((s.onHart fun h => { h with mode := h.csr.pm }).startCheck s.hart.csr.tepc) s.hart.csr.tepc (s.onHart Hart.eret))

/-- `uret` (R115). -/
def execUret (s : State) : Host.Outcome State Fault Refusal :=
  .next (if s.hart.mode = .supervisor then s.refuse .illegal s.hart.pc
    else s.going (s.startCheck s.hart.csr.uepc) s.hart.csr.uepc (s.onHart Hart.uret))

/-- `pause` (R116): the hart withdraws from issue selection. -/
def execPause (s : State) : Host.Outcome State Fault Refusal :=
  .next (s.complete 4 fun t => t.onHart fun h => { h with paused := true })

/-! ## vcfg (R71, R117) -/

/-- The register file reshaped: with a new count every vector register reads zero and every poison bit and parity error
is gone. -/
def Hart.reshape (h : Hart) (c : Count) (e : Elem) : Hart :=
  let h1 :=
    if c = h.count then h
    else
      { h with
        v := Vector.replicate 256 0
        brim := Vector.replicate 256 0
        brimPoison := Vector.replicate 256 0
        badCrown := []
        badBrim := []
        progress := Vector.replicate 64 (BitVec.ofNat 6 c.groups) }
  { h1 with count := c, elem := e, csr := { h1.csr with ffx := BitVec.ofNat 64 (vmaxOf c e) } }

/-- `vcfg` performed (R117). -/
def vcfgNow (d : BitVec 5) (cnt : BitVec 2) (sew : BitVec 3) (alt : BitVec 1) (s : State) : State :=
  match Count.ofCode cnt, Elem.ofCode sew alt with
  | some c, some e =>
    s.complete 4 fun t => (t.onHart fun h => h.reshape c e).setX d (BitVec.ofNat 64 (vmaxOf c e))
  | _, _ => s.refuse .illegal s.hart.pc

/-- `vcfg` (R117): it waits for the convoys and the matrix queue (R71). -/
def execVcfg (d : BitVec 5) (cnt : BitVec 2) (sew : BitVec 3) (alt : BitVec 1) (s : State) :
    Host.Outcome State Fault Refusal :=
  .next (s.start (.vcfg d cnt sew alt) [d] (s.hart.still && s.hart.queue.isEmpty) (vcfgNow d cnt sew alt s))

/-! ## bsync (R326) -/

/-- `bsync` performed (R326). -/
def bsyncNow (s : State) : State :=
  if errorBits s.hart.csr.bsum ≠ 0 then s.refuse .brim s.hart.csr.bsum
  else s.complete 4 fun t => t.onHart Hart.takeBrimFlags

/-- `bsync` may be performed: every brim convoy that the hart sent has completed, and what a dropped one had committed has
been performed (R326, R329). -/
def State.bsyncReady (s : State) : Bool := s.hart.brimConvoys.isEmpty && !s.brimAway

/-- `bsync` (R326). -/
def execBsync (s : State) : Host.Outcome State Fault Refusal :=
  .next (s.start .bsync [] s.bsyncReady (bsyncNow s))

/-! ## What cannot be executed -/

/-- The trap for which bytes at pc are no instruction (R43, R44, R49); `none` when they are one. -/
def undecodable (mode : Mode) (count : Count) (d : List Byte) : Option Cause :=
  let w := leNat d
  match d.length with
  | 2 => if parcelOk (BitVec.ofNat 16 w) then none else some .illegal
  | 8 =>
    match decode64 (BitVec.ofNat 64 w) with
    | .ok _ => none
    | .error _ => some .illegal
  | _ =>
    let v := BitVec.ofNat 32 w
    if isVectorMajor (majorOf v) then
      match decodeMember v with
      | .ok _ => none
      | .error .chainedMove => some (count.moveCause v)
      | .error _ => some .illegal
    else if scalarOk mode v then none else some .illegal

/-- A fault in fetching at TVEC in supervisor mode (R170). -/
def Hart.atVector (h : Hart) : Bool := decide (h.mode = .supervisor) && decide (h.pc = h.csr.tvec)

/-- What a fetch that fails does (R42, R170, R274). -/
def State.fetchStops (s t : State) (e : FetchStop) : State :=
  match e with
  | .access va => if s.hart.atVector then t.haltHart else s.stopAt t (s.scalarTrap .access va)
  | .stall f => t.stall (.hart s.hart.id) f
  | .wait => t

/-- The bytes at pc are no instruction (R43). -/
def execNotAnInstruction (s : State) : Host.Outcome State Fault Refusal :=
  .next (match s.fetchInstr s.hart.pc with
    | (.ok d, t) =>
      match undecodable s.hart.mode s.hart.count d with
      | some c => s.stopAt t (s.scalarTrap c s.hart.pc)
      | none => s
    | (.error _, _) => s)

/-- A parcel of the instruction at pc cannot be fetched (R42). -/
def execInstructionFetchFault (s : State) : Host.Outcome State Fault Refusal :=
  .next (match s.fetchInstr s.hart.pc with
    | (.error e, t) => s.fetchStops t e
    | (.ok _, _) => s)

end Sys2Proof.Machine
end

