-- ==== Sys2Proof/Machine/Waits.lean ====
section
/-! DEFINITION. Waits.lean: how an instruction that waits is finished by the event it waits for (R71, R100, R113, R143,
R164, R166, R168, R196, R218, R223, R229, R230, R246, R268, R281, R288, R289, R325, R326, R339, R362). -/

namespace Sys2Proof.Machine

/-! ## Instructions that wait -/

/-- A load (R100). -/
def isLoad (i : Instr) : Bool :=
  match i with
  | .ldB _ _ _ => true
  | .ldBn _ _ _ => true
  | .ldH _ _ _ => true
  | .ldHn _ _ _ => true
  | .ldW _ _ _ => true
  | .ldWn _ _ _ => true
  | .ldD _ _ _ => true
  | .cLdW _ _ _ => true
  | .cLdD _ _ => true
  | .ldAcqW _ _ _ => true
  | .ldAcqD _ _ _ => true
  | _ => false

/-- A release store (R164). -/
def isRelease (i : Instr) : Bool :=
  match i with
  | .stRelW _ _ _ => true
  | .stRelD _ _ _ => true
  | _ => false

/-- A scalar atomic (R107, R325). -/
def isAtomic (i : Instr) : Bool :=
  match i with
  | .amoadd _ _ _ _ _ => true
  | .amoand _ _ _ _ _ => true
  | .amoor _ _ _ _ _ => true
  | .amoxor _ _ _ _ _ => true
  | .amomin _ _ _ _ _ => true
  | .amomax _ _ _ _ _ => true
  | .amoswap _ _ _ _ _ => true
  | .amocas _ _ _ _ _ => true
  | .amoaddAcqrel _ _ _ _ _ => true
  | .amoandAcqrel _ _ _ _ _ => true
  | .amoorAcqrel _ _ _ _ _ => true
  | .amoxorAcqrel _ _ _ _ _ => true
  | .amominAcqrel _ _ _ _ _ => true
  | .amomaxAcqrel _ _ _ _ _ => true
  | .amoswapAcqrel _ _ _ _ _ => true
  | .amocasAcqrel _ _ _ _ _ => true
  | _ => false

/-- A fence (R166, R167). -/
def isFence (i : Instr) : Bool :=
  match i with
  | .fenceSv _ => true
  | .fenceVs _ => true
  | .fenceVv _ => true
  | .fenceAll _ => true
  | .fenceStk _ => true
  | _ => false

/-- A matrix instruction that is posted to the queue, but for `mtv` (R218). -/
def isMatrixPost (i : Instr) : Bool :=
  match i with
  | .mzero _ => true
  | .mma _ _ _ _ _ _ _ _ => true
  | .mmas _ _ _ _ _ _ _ _ _ => true
  | .mmag _ _ _ _ _ _ _ _ _ => true
  | .mmax _ _ _ _ _ _ _ _ _ => true
  | .mvt _ _ _ => true
  | _ => false

/-- An engine instruction that is queued (R339). -/
def isEngine (i : Instr) : Bool :=
  match i with
  | .copyL _ _ _ => true
  | .copy2d _ _ _ => true
  | .copyG _ _ _ => true
  | .copyS _ _ _ => true
  | .embw _ _ _ => true
  | .stprobe _ _ _ _ => true
  | .stfill _ _ _ _ => true
  | .cname _ _ _ => true
  | .collAllReduce _ _ _ => true
  | .collAllGather _ _ _ => true
  | .collReduceScatter _ _ _ => true
  | _ => false

/-- `stctl` (R362). -/
def isStctl (i : Instr) : Bool :=
  match i with
  | .stctlStream _ _ => true
  | .stctlAsid _ _ => true
  | .stctlAll _ _ => true
  | _ => false

/-- `icsync` (R168). -/
def isIcsync (i : Instr) : Bool :=
  match i with
  | .icsync _ => true
  | _ => false

/-- `awadd` (R196). -/
def isAwadd (i : Instr) : Bool :=
  match i with
  | .awadd _ _ _ => true
  | _ => false

/-- `carrive` (R246). -/
def isCarrive (i : Instr) : Bool :=
  match i with
  | .carrive _ _ => true
  | _ => false

/-- `vcfg` (R71). -/
def isVcfg (i : Instr) : Bool :=
  match i with
  | .vcfg _ _ _ _ => true
  | _ => false

/-- `bsync` (R326). -/
def isBsync (i : Instr) : Bool :=
  match i with
  | .bsync => true
  | _ => false

/-- `mtv` (R229). -/
def isMtv (i : Instr) : Bool :=
  match i with
  | .mtv _ _ _ => true
  | _ => false

/-- `mshape` (R223). -/
def isMshape (i : Instr) : Bool :=
  match i with
  | .mshape _ => true
  | _ => false

/-- `msync` (R230). -/
def isMsync (i : Instr) : Bool :=
  match i with
  | .msync => true
  | _ => false

/-- `farmnext` (R288). -/
def isFarmnext (i : Instr) : Bool :=
  match i with
  | .farmnext _ => true
  | _ => false

/-- `retire` (R289). -/
def isRetire (i : Instr) : Bool :=
  match i with
  | .retire => true
  | _ => false

/-- A write of a CSR (R111). -/
def isCsrWrite (i : Instr) : Bool :=
  match i with
  | .csrw _ _ _ => true
  | .csrs _ _ _ => true
  | .csrc _ _ _ => true
  | _ => false

/-- A write of one CSR. -/
def writesCsr (n : Nat) (i : Instr) : Bool :=
  match i with
  | .csrw _ c _ => decide (c.toNat = n)
  | .csrs _ c _ => decide (c.toNat = n)
  | .csrc _ c _ => decide (c.toNat = n)
  | _ => false

/-- A CSR instruction that reads one CSR. -/
def readsCsr (n : Nat) (i : Instr) : Bool :=
  match i with
  | .csrr _ c => decide (c.toNat = n)
  | .csrw d c _ => decide (c.toNat = n) && decide (d ≠ 0)
  | .csrs d c _ => decide (c.toNat = n) && decide (d ≠ 0)
  | .csrc d c _ => decide (c.toNat = n) && decide (d ≠ 0)
  | _ => false

/-- The CSRs whose writes are events of their own. -/
def namedWrites : List Nat :=
  [0x000, 0x003, 0x012, 0x109, 0x306, 0x303, 0x300, 0x301, 0x311, 0x312, 0x323, 0x340, 0x330, 0x331]

/-- A write of any other CSR (R8). -/
def isOtherWrite (i : Instr) : Bool := isCsrWrite i && !namedWrites.any fun n => writesCsr n i

/-! ## Finishing -/

/-- A state given only where a condition holds. -/
def whenTrue (b : Bool) (s : State) : Option State := if b then some s else none

/-- The current hart has a launch that has not been judged. -/
def State.launchPending (s : State) : Bool := s.ctl.launches.any fun l => l.hart.any fun p => decide (p.1 = s.hart.id)

/-- The current hart has a migration in progress. -/
def State.migratingBy (s : State) : Bool := s.migrations.any fun m => decide (m.hart = s.hart.id)

/-- The instruction that the current hart waits for, performed; `none` where it may not go on yet, or does not wait by
being named. `s` is the state with the wait ended. -/
def finishOf (i : Instr) (s : State) : Option State :=
  match i with
  | .pmig a b => whenTrue (!s.migratingBy) (pmigNow a b s)
  | .ldB d a imm => some (ldBNow d a imm s)
  | .ldBn d a imm => some (ldBnNow d a imm s)
  | .ldH d a imm => some (ldHNow d a imm s)
  | .ldHn d a imm => some (ldHnNow d a imm s)
  | .ldW d a imm => some (ldWNow d a imm s)
  | .ldWn d a imm => some (ldWnNow d a imm s)
  | .ldD d a imm => some (ldDNow d a imm s)
  | .ldAcqW d a sc => some (ldAcqWNow d a sc s)
  | .ldAcqD d a sc => some (ldAcqDNow d a sc s)
  | .stRelW b a sc => whenTrue (s.released sc) (stRelWNow b a sc s)
  | .stRelD b a sc => whenTrue (s.released sc) (stRelDNow b a sc s)
  | .amoadd w d b a sc => some (amoaddNow w d b a sc s)
  | .amoand w d b a sc => some (amoandNow w d b a sc s)
  | .amoor w d b a sc => some (amoorNow w d b a sc s)
  | .amoxor w d b a sc => some (amoxorNow w d b a sc s)
  | .amomin w d b a sc => some (amominNow w d b a sc s)
  | .amomax w d b a sc => some (amomaxNow w d b a sc s)
  | .amoswap w d b a sc => some (amoswapNow w d b a sc s)
  | .amocas w d b a sc => some (amocasNow w d b a sc s)
  | .amoaddAcqrel w d b a sc => whenTrue (s.released sc) (amoaddAcqrelNow w d b a sc s)
  | .amoandAcqrel w d b a sc => whenTrue (s.released sc) (amoandAcqrelNow w d b a sc s)
  | .amoorAcqrel w d b a sc => whenTrue (s.released sc) (amoorAcqrelNow w d b a sc s)
  | .amoxorAcqrel w d b a sc => whenTrue (s.released sc) (amoxorAcqrelNow w d b a sc s)
  | .amominAcqrel w d b a sc => whenTrue (s.released sc) (amominAcqrelNow w d b a sc s)
  | .amomaxAcqrel w d b a sc => whenTrue (s.released sc) (amomaxAcqrelNow w d b a sc s)
  | .amoswapAcqrel w d b a sc => whenTrue (s.released sc) (amoswapAcqrelNow w d b a sc s)
  | .amocasAcqrel w d b a sc => whenTrue (s.released sc) (amocasAcqrelNow w d b a sc s)
  | .fenceSv sc => whenTrue (s.released sc) (fenceSvNow sc s)
  | .fenceVs sc => whenTrue (s.released sc) (fenceVsNow sc s)
  | .fenceVv sc => whenTrue (s.released sc) (fenceVvNow sc s)
  | .fenceAll sc => whenTrue (s.fenced sc) (fenceAllNow sc s)
  | .fenceStk n => whenTrue (s.fenced 0) (fenceStkNow n s)
  | .icsync sc => whenTrue s.icsyncReady (icsyncNow sc s)
  | .csrr d csr => whenTrue (s.hart.csrReadable csr.toNat) (csrrNow d csr s)
  | .csrw d csr a => whenTrue (s.csrWritable csr a) (csrwNow d csr a s)
  | .csrs d csr a => whenTrue s.hart.still (csrsNow d csr a s)
  | .csrc d csr a => whenTrue s.hart.still (csrcNow d csr a s)
  | .vcfg d cnt sew alt => whenTrue (s.hart.still && s.hart.queue.isEmpty) (vcfgNow d cnt sew alt s)
  | .copyL d a b => whenTrue (s.copyReady none) (copyLNow d a b s)
  | .copy2d d a b => whenTrue (s.copyReady none) (copy2dNow d a b s)
  | .copyG d a b => whenTrue (s.copyReady (some b)) (copyGNow d a b s)
  | .copyS d a b => whenTrue (s.copyReady (some b)) (copySNow d a b s)
  | .embw d a b => whenTrue s.engineReady (embwNow d a b s)
  | .stprobe m v a b => whenTrue (s.engineReadyFor (some v) (some (m.setWidth 5))) (stprobeNow m v a b s)
  | .stfill v a b g => whenTrue (s.engineReadyFor (some v) none) (stfillNow v a b g s)
  | .stctlStream a b => whenTrue s.engineReady (stctlStreamNow a b s)
  | .stctlAsid a b => whenTrue s.engineReady (stctlAsidNow a b s)
  | .stctlAll a b => whenTrue s.engineReady (stctlAllNow a b s)
  | .cname n a b => whenTrue s.engineReady (cnameNow n a b s)
  | .collAllReduce n a b => whenTrue s.engineReady (collAllReduceNow n a b s)
  | .collAllGather n a b => whenTrue s.engineReady (collAllGatherNow n a b s)
  | .collReduceScatter n a b => whenTrue s.engineReady (collReduceScatterNow n a b s)
  | .awadd a b sc => whenTrue (s.released sc) (awaddNow a b sc s)
  | .carrive a b => whenTrue (s.released 2) (carriveNow a b s)
  | .launch d a => whenTrue (s.launchReady && !s.launchPending) (launchNow d a s)
  | .farmnext d => some (farmnextNow d s)
  | .retire => whenTrue (s.hart.still && s.hart.queue.isEmpty) (retireNow s)
  | .bsync => whenTrue s.bsyncReady (bsyncNow s)
  | .cLdW d a imm => some (cLdWNow d a imm s)
  | .cLdD d imm => some (cLdDNow d imm s)
  | .mshape xs => whenTrue s.hart.still (mshapeNow xs s)
  | .mzero t => whenTrue s.hart.queueFree (mzeroNow t s)
  | .mma t va vb fa fb neg sat ovw => whenTrue s.hart.queueFree (mmaNow t va vb fa fb neg sat ovw s)
  | .mmas t va vb vx fa fb neg sat ovw => whenTrue s.hart.queueFree (mmasNow t va vb vx fa fb neg sat ovw s)
  | .mmag t va vb xs fa fb neg sat ovw => whenTrue s.hart.queueFree (mmagNow t va vb xs fa fb neg sat ovw s)
  | .mmax t va vb vx fa fb neg sat ovw => whenTrue s.hart.queueFree (mmaxNow t va vb vx fa fb neg sat ovw s)
  | .mtv va t xs => whenTrue (s.hart.mtvReady t) (mtvNow va t xs s)
  | .mvt t va xs => whenTrue s.hart.queueFree (mvtNow t va xs s)
  | .msync => whenTrue s.hart.queue.isEmpty (msyncNow s)
  | _ => none

/-- The current hart can act: a farm's hart occupies the place, it has not halted or stopped for pre-emption, and it is
not stalled. -/
def State.awake (s : State) : Bool :=
  s.hart.live && !s.hart.halted && !s.spilled s.hart && !s.stalled (.hart s.hart.id)

/-- A waiting instruction has come further: its wait has ended, or a request, a launch or a migration has begun. -/
def State.waitMoved (s t : State) : Bool :=
  t.hart.wait.isNone || decide (t.remote ≠ s.remote) || decide (t.ctl.launches.length ≠ s.ctl.launches.length) ||
    decide (t.migrations.length ≠ s.migrations.length)

/-- The waiting instruction of the current hart, of a kind, performed; `none` where it goes on waiting with nothing done. -/
def State.finishWait (kind : Instr → Bool) (s : State) : Option State :=
  match s.hart.wait with
  | some i =>
    if s.awake && kind i then
      match finishOf i (s.onHart fun h => { h with wait := none }) with
      | some t => if s.waitMoved t then some t else none
      | none => none
    else none
  | none => none

/-- An event that ends the wait of a hart's instruction of a kind. -/
def State.endWait (s : State) (h : HartId) (kind : Instr → Bool) : State :=
  withHart h (fun t => (t.finishWait kind).getD t) s

/-! ## The events -/

/-- LOAD_DATA_RETURN (R100). -/
def execLoadDataReturn (h : HartId) (s : State) : Host.Outcome State Fault Refusal := .next (s.endWait h isLoad)

/-- RELEASE_STORE_PERFORM (R164). -/
def execReleaseStorePerform (h : HartId) (s : State) : Host.Outcome State Fault Refusal := .next (s.endWait h isRelease)

/-- NEAR_MEMORY_ATOMIC (R325). -/
def execNearMemoryAtomic (h : HartId) (s : State) : Host.Outcome State Fault Refusal := .next (s.endWait h isAtomic)

/-- FENCE_DONE (R166). -/
def execFenceDone (h : HartId) (s : State) : Host.Outcome State Fault Refusal := .next (s.endWait h isFence)

/-- MATRIX_POST (R218). -/
def execMatrixPost (h : HartId) (s : State) : Host.Outcome State Fault Refusal := .next (s.endWait h isMatrixPost)

/-- ENGINE_ENQUEUE (R339). -/
def execEngineEnqueue (h : HartId) (s : State) : Host.Outcome State Fault Refusal := .next (s.endWait h isEngine)

/-- STCTL_DONE (R362). -/
def execStctlDone (h : HartId) (s : State) : Host.Outcome State Fault Refusal := .next (s.endWait h isStctl)

/-- ICSYNC_DONE (R168). -/
def execIcsyncDone (h : HartId) (s : State) : Host.Outcome State Fault Refusal := .next (s.endWait h isIcsync)

/-- AWADD_CONTRIBUTION (R196). -/
def execAwaddContribution (h : HartId) (s : State) : Host.Outcome State Fault Refusal := .next (s.endWait h isAwadd)

/-- CARRIVE_ARRIVAL (R246). -/
def execCarriveArrival (h : HartId) (s : State) : Host.Outcome State Fault Refusal := .next (s.endWait h isCarrive)

/-- VCFG_RESHAPE (R71). -/
def execVcfgReshape (h : HartId) (s : State) : Host.Outcome State Fault Refusal := .next (s.endWait h isVcfg)

/-- BSYNC_DONE (R326). -/
def execBsyncDone (h : HartId) (s : State) : Host.Outcome State Fault Refusal := .next (s.endWait h isBsync)

/-- MTV_POST (R229). -/
def execMtvPost (h : HartId) (s : State) : Host.Outcome State Fault Refusal := .next (s.endWait h isMtv)

/-- MSHAPE_APPLY (R223). -/
def execMshapeApply (h : HartId) (s : State) : Host.Outcome State Fault Refusal := .next (s.endWait h isMshape)

/-- MSYNC_DONE (R230). -/
def execMsyncDone (h : HartId) (s : State) : Host.Outcome State Fault Refusal := .next (s.endWait h isMsync)

/-- STRIP_HANDOUT (R288). -/
def execStripHandout (h : HartId) (s : State) : Host.Outcome State Fault Refusal := .next (s.endWait h isFarmnext)

/-- RETIRE_LEAVE (R289). -/
def execRetireLeave (h : HartId) (s : State) : Host.Outcome State Fault Refusal := .next (s.endWait h isRetire)

/-- CSR_WRITE_APPLY (R113). -/
def execCsrWriteApply (h : HartId) (s : State) : Host.Outcome State Fault Refusal := .next (s.endWait h isCsrWrite)

/-- FPCTL_WRITE (R24). -/
def execFpctlWrite (h : HartId) (s : State) : Host.Outcome State Fault Refusal := .next (s.endWait h (writesCsr 0x000))

/-- FFX_WRITE (R90). -/
def execFfxWrite (h : HartId) (s : State) : Host.Outcome State Fault Refusal := .next (s.endWait h (writesCsr 0x003))

/-- BSUM_WRITE (R332). -/
def execBsumWrite (h : HartId) (s : State) : Host.Outcome State Fault Refusal := .next (s.endWait h (writesCsr 0x012))

/-- PTBASE_WRITE (R267). -/
def execPtbaseWrite (h : HartId) (s : State) : Host.Outcome State Fault Refusal := .next (s.endWait h (writesCsr 0x109))

/-- FBTAIL_WRITE (R273). -/
def execFbtailWrite (h : HartId) (s : State) : Host.Outcome State Fault Refusal := .next (s.endWait h (writesCsr 0x303))

/-- FBBASE_WRITE (R271). -/
def execFbbaseWrite (h : HartId) (s : State) : Host.Outcome State Fault Refusal := .next (s.endWait h (writesCsr 0x300))

/-- FBSIZE_WRITE (R271). -/
def execFbsizeWrite (h : HartId) (s : State) : Host.Outcome State Fault Refusal := .next (s.endWait h (writesCsr 0x301))

/-- SPBASE_WRITE (R298). -/
def execSpbaseWrite (h : HartId) (s : State) : Host.Outcome State Fault Refusal := .next (s.endWait h (writesCsr 0x311))

/-- SPSIZE_WRITE (R298). -/
def execSpsizeWrite (h : HartId) (s : State) : Host.Outcome State Fault Refusal := .next (s.endWait h (writesCsr 0x312))

/-- BSAVE_WRITE (R337). -/
def execBsaveWrite (h : HartId) (s : State) : Host.Outcome State Fault Refusal := .next (s.endWait h (writesCsr 0x323))

/-- PWRCAP_WRITE (R382). -/
def execPwrcapWrite (h : HartId) (s : State) : Host.Outcome State Fault Refusal := .next (s.endWait h (writesCsr 0x340))

/-- STABASE_WRITE (R364). -/
def execStabaseWrite (h : HartId) (s : State) : Host.Outcome State Fault Refusal := .next (s.endWait h (writesCsr 0x330))

/-- STALIMIT_WRITE (R364). -/
def execStalimitWrite (h : HartId) (s : State) : Host.Outcome State Fault Refusal := .next (s.endWait h (writesCsr 0x331))

/-- ACDATA_READ (R337). -/
def execAcdataRead (h : HartId) (s : State) : Host.Outcome State Fault Refusal := .next (s.endWait h (readsCsr 0x321))

/-- STCDATA_READ (R364). -/
def execStcdataRead (h : HartId) (s : State) : Host.Outcome State Fault Refusal := .next (s.endWait h (readsCsr 0x333))

/-- WSTAT_READ (R202). -/
def execWstatRead (h : HartId) (s : State) : Host.Outcome State Fault Refusal := .next (s.endWait h (readsCsr 0x203))

/-- CERR_READ (R202). -/
def execCerrRead (h : HartId) (s : State) : Host.Outcome State Fault Refusal := .next (s.endWait h (readsCsr 0x204))

/-- FCSTAT_READ (R298). -/
def execFcstatRead (h : HartId) (s : State) : Host.Outcome State Fault Refusal := .next (s.endWait h (readsCsr 0x313))

/-- BRSTAT_READ (R337). -/
def execBrstatRead (h : HartId) (s : State) : Host.Outcome State Fault Refusal := .next (s.endWait h (readsCsr 0x322))

/-- PWRSTAT_READ (R382). -/
def execPwrstatRead (h : HartId) (s : State) : Host.Outcome State Fault Refusal := .next (s.endWait h (readsCsr 0x341))

/-- REGISTER_WRITE (R8). -/
def execRegisterWrite (h : HartId) (s : State) : Host.Outcome State Fault Refusal := .next (s.endWait h isOtherWrite)

/-- XINV_COMPLETE: a write of XINV, which completes once no matching translation remains (R268). -/
def execXinvComplete (h : HartId) (s : State) : Host.Outcome State Fault Refusal := .next (s.endWait h (writesCsr 0x306))

/-- The waiting instruction is a `csrw` of XINV whose ALL bit is as given. -/
def State.xinvWrite (s : State) (all : Bool) (i : Instr) : Bool :=
  match i with
  | .csrw _ c a => decide (c.toNat = 0x306) && bit (s.x a) 63 == all
  | _ => false

/-- A write of XINV of one kind performed. -/
def State.endXinv (s : State) (h : HartId) (all : Bool) : State :=
  withHart h (fun t => (t.finishWait (t.xinvWrite all)).getD t) s

/-- XINV_PAGE (R268). -/
def execXinvPage (h : HartId) (s : State) : Host.Outcome State Fault Refusal := .next (s.endXinv h false)

/-- XINV_ALL (R268). -/
def execXinvAll (h : HartId) (s : State) : Host.Outcome State Fault Refusal := .next (s.endXinv h true)

end Sys2Proof.Machine
end

