-- ==== Sys2Proof/Machine/Events.lean ====
section
/-! DEFINITION. Events.lean: the events of convoys, matrix entries, walks, posted stores, sleep and gating, and soft errors
(R79, R116, R143, R186, R199 to R202, R211, R219, R243, R252, R262, R276, R317, R330, R389, R414). -/

namespace Sys2Proof.Machine

/-! ## Convoys and matrix entries -/

/-- The convoys of the current hart may go on: it occupies its place and has not stopped for pre-emption. -/
def State.convoysRun (s : State) : Bool := s.hart.live && !s.spilled s.hart

/-- The head crown convoy runs its next group (R79). -/
def State.crownGroup (s : State) : State :=
  match (if s.convoysRun then s.crownReady else none) with
  | some c => (s.runGroup c).1
  | none => s

/-- CONVOY_GROUP_COMMIT (R79). -/
def execConvoyGroupCommit (h : HartId) (s : State) : Host.Outcome State Fault Refusal := .next (withHart h State.crownGroup s)

/-- The head brim convoy takes its next step, where it is of a kind (R317). -/
def State.brimGroup (kind : State → Convoy → Bool) (s : State) : State :=
  match (if s.convoysRun then s.brimReady else none) with
  | some c => if kind s c then (s.runGroup c).1 else s
  | none => s

/-- Groups of a convoy are left to run. -/
def groupsLeft (s : State) (c : Convoy) : Bool := decide (c.next < c.groups s.hart)

/-- Every group of a convoy has committed. -/
def groupsDone (s : State) (c : Convoy) : Bool := decide (c.groups s.hart ≤ c.next)

/-- A synchronising convoy that has not begun. -/
def syncUnsent (s : State) (c : Convoy) : Bool := c.sync && decide (c.next = 0) && groupsLeft s c

/-- BRIM_GROUP_COMMIT (R317). -/
def execBrimGroupCommit (h : HartId) (s : State) : Host.Outcome State Fault Refusal :=
  .next (withHart h (State.brimGroup groupsLeft) s)

/-- BRIM_CONVOY_COMPLETE (R317). -/
def execBrimConvoyComplete (h : HartId) (s : State) : Host.Outcome State Fault Refusal :=
  .next (withHart h (State.brimGroup groupsDone) s)

/-- BRIM_SYNC_SEND (R143, R146): a synchronisation whose earlier convoys have completed proceeds. -/
def execBrimSyncSend (h : HartId) (s : State) : Host.Outcome State Fault Refusal :=
  .next (withHart h (State.brimGroup syncUnsent) s)

/-- The head entry of the matrix queue completes (R219). -/
def State.matrixStep (s : State) : State :=
  match (if s.convoysRun then s.hart.entryReady else none) with
  | some (e, rest) => s.completeEntry e rest
  | none => s

/-- MATRIX_ENTRY_COMPLETE (R219). -/
def execMatrixEntryComplete (h : HartId) (s : State) : Host.Outcome State Fault Refusal :=
  .next (withHart h State.matrixStep s)

/-! ## Walks and walkers (R262, R276) -/

/-- The walk that the waiting instruction needs has ended (R262). -/
def State.walkEnds (s : State) : State :=
  if s.hart.live && s.hart.wait.isSome then s.onHart fun h => { h with walked := true } else s

/-- TRANSLATION_WALK_DONE (R262). -/
def execTranslationWalkDone (h : HartId) (s : State) : Host.Outcome State Fault Refusal := .next (withHart h State.walkEnds s)

/-- WALKER_FAILURE (R276): the walker takes no further walks. The spec names no kind for its EVENT: a free value. -/
def execWalkerFailure (w : BitVec 5) (s : State) : Host.Outcome State Fault Refusal :=
  .next (if (s.walkers[w.toNat]'w.isLt).failed then s
    else { s with walkers := s.walkers.set w.toNat ⟨true, []⟩ w.isLt }.draw.report (BitVec.ofNat 16 (Config.choice s.draws))
      noSubject [zext w])

/-! ## Posted stores (R243) -/

/-- The posted store of that number performed, unless an earlier one writes some of its bytes, or a load before it is in
flight (R100, R163). -/
def State.performStore (n : Nat) (s : State) : State :=
  match s.hart.stores[n]? with
  | some p =>
    if s.hart.holdsStore p || (s.storeLoc p).any fun l => (s.hart.stores.take n).any fun q => s.overlaps q l p.data.length then s
    else (s.onHart fun h => { h with stores := h.stores.eraseIdx n }).performOne p
  | none => s

/-- STORE_PERFORMED (R243). -/
def execStorePerformed (h : HartId) (n : Nat) (s : State) : Host.Outcome State Fault Refusal :=
  .next (withHart h (State.performStore n) s)

/-- A waiting store comes after another of its brim agent: both are vertical (R153), or they are stores of one member to the
same bytes (R151). -/
def LateralStore.follows (p q : LateralStore) : Bool :=
  (p.vertical && q.vertical) ||
    (decide (q.order = p.order ∧ q.part = p.part) && decide (p.loc < q.loc + q.data.length) &&
      decide (q.loc < p.loc + p.data.length))

/-- The waiting brim store of that number performed, unless it comes after an earlier one (R151, R153): the lateral ones are
unordered. -/
def State.performLateral (n : Nat) (s : State) : State :=
  match s.hart.laterals[n]? with
  | some p =>
    if (s.hart.laterals.take n).any p.follows then s
    else (s.onHart fun h => { h with laterals := h.laterals.eraseIdx n }).writeMarked p.loc p.data p.bad
  | none => s

/-! ## Issue, sleep and gating (R116, R186, R199 to R202) -/

/-- PAUSE_EXPIRY (R116). -/
def execPauseExpiry (h : HartId) (s : State) : Host.Outcome State Fault Refusal :=
  .next (withHart h (fun t => t.onHart fun k => { k with paused := false }) s)

/-- ISSUE_FAIRNESS (R186): a hart ready and not chosen in each of the last six issuing cycles is the one that issues
next. -/
def execIssueFairness (h : HartId) (s : State) : Host.Outcome State Fault Refusal :=
  .next (if (s.place h).live && decide (6 ≤ (s.place h).passed) then s.focus h else s)

/-- The current hart can be woken: it sleeps, is not stalled and has not stopped for pre-emption. -/
def State.sleeps (s : State) : Bool :=
  s.hart.live && s.hart.sleep.isSome && !s.spilled s.hart && !s.stalled (.hart s.hart.id)

/-- WAIT_WAKE (R199): only a write to its watched word wakes a hart, and the report of R201. -/
def execWaitWake (h : HartId) (s : State) : Host.Outcome State Fault Refusal :=
  .next (withHart h (fun t => if t.sleeps && t.wakeDue then t.wokenUp else t) s)

/-- RESIDENCY_REPORT (R201): the timer counts on while a convoy or a check of the sleeper is stalled. -/
def execResidencyReport (h : HartId) (s : State) : Host.Outcome State Fault Refusal :=
  .next (withHart h (fun t => if t.hart.live && t.hart.sleep.isSome && !t.spilled t.hart then t.residency else t) s)

/-- A sleeping hart's share of its core is clock-gated (R200); WGATE 0 disables it. -/
def State.gateClock (s : State) : State :=
  match s.hart.sleep with
  | some z =>
    if s.hart.live ∧ s.core.wgate ≠ 0 then s.onHart fun h => { h with sleep := some { z with clockGated := true } } else s
  | none => s

/-- CLOCK_GATE (R200). -/
def execClockGate (h : HartId) (s : State) : Host.Outcome State Fault Refusal := .next (withHart h State.gateClock s)

/-- POWER_GATE (R200): every occupied place of the core sleeps; WPOWER 0 disables it. -/
def execPowerGate (core : BitVec 7) (s : State) : Host.Outcome State Fault Refusal :=
  .next
    (let k := s.cores[core.toNat]'core.isLt
     if k.wpower ≠ 0 ∧ k.powerGated = false ∧ ((s.hartsOf core).all fun h => !h.live || h.sleep.isSome) = true then
       s.onCore core fun k => { k with powerGated := true, powergates := satAdd k.powergates 1 }
     else s)

/-! ## Soft errors (R211, R252, R276, R330, R389) -/

/-- The next brim group of the current hart meets a read of a DRAM word that delivers nothing: handled as an
uncorrectable error of each element there, with the place code of a failed read and the element's own address (R330,
R414). A group that does not read the word leaves all as it is. -/
def State.readFailing (l : Nat) (s : State) : State :=
  let u := unitOf l
  if !inDram l || touchesBad s u 1 then s
  else
    let t := ({ s with badUnits := u :: s.badUnits, failing := some u }).brimGroup groupsLeft
    if t.plat.sent = s.plat.sent ∧ t.plat.held = s.plat.held ∧ t.plat.lost = s.plat.lost then s
    else { t with badUnits := t.badUnits.filter fun v => decide (v ≠ u), failing := none }

/-- FAILED_READ (R330). -/
def execFailedRead (h : HartId) (loc : Nat) (s : State) : Host.Outcome State Fault Refusal :=
  .next (withHart h (State.readFailing loc) s)

/-- A hart changed by a soft error, if a farm's hart occupies the place. -/
def State.strike (s : State) (h : HartId) (f : Hart → Hart) : State :=
  withHart h (fun t => if t.hart.live then t.onHart f else t) s

/-- A bit of a byte flipped. -/
def flipByte (b : Byte) (k : Fin 8) : Byte := b ^^^ (1#8 <<< k.val)

/-- A bit of storage groups flipped. -/
def flipGroup {n : Nat} (v : Vector Group n) (byte : Nat) (k : Fin 8) : Vector Group n :=
  v.setIfInBounds (byte / 256) (v.getD (byte / 256) 0 ^^^ (1#2048 <<< (byte % 256 * 8 + k.val)))

/-- A soft error strikes: storage keeps it until a write covers it (R389); a cache entry is dropped (R276); a scalar
register or CSR halts its hart (R211). A wrong value of a datapath, or of the logic at a hop boundary, goes unreported
(R390). -/
def State.upset (s : State) (u : Upset) : State :=
  match u with
  | .crownByte h b => s.strike h fun k => if b < 65536 then { k with badCrown := b :: k.badCrown } else k
  | .brimByte h b => s.strike h fun k => if b < 65536 then { k with badBrim := b :: k.badBrim } else k
  | .tileByte h b => s.strike h fun k => if b < 32768 then { k with badTile := b :: k.badTile } else k
  | .scalarRegister h => withHart h (fun t => if t.hart.live && !t.hart.halted then t.haltHart else t) s
  | .memory l =>
    if touchesBad s (unitOf l) 1 then s
    else { s with badUnits := unitOf l :: s.badUnits, badCached := s.badCached.filter fun v => decide (v ≠ unitOf l) }
  | .stackCache l =>
    if !inDram l || touchesBad s (unitOf l) 1 then s
    else { s with badUnits := unitOf l :: s.badUnits, badCached := unitOf l :: s.badCached }
  | .slot c k => s.onSlot c k fun x => { x with bad := true }
  | .staging id chunk => { s with badStaging := (id, chunk) :: s.badStaging }
  | .pageSorter c n => s.onCore c fun k => { k with tlb := k.tlb.eraseIdx n }
  | .brimSorter t n => s.onStack t fun k => { k with tlb := k.tlb.eraseIdx n }
  | .walkCache w n =>
    let k := s.walkers[w.toNat]'w.isLt
    { s with walkers := s.walkers.set w.toNat { k with cache := k.cache.eraseIdx n } w.isLt }
  | .lane h b k => s.strike h fun g => { g with v := flipGroup g.v b k }
  | .brimLane h b k => s.strike h fun g => { g with brim := flipGroup g.brim b k }
  | .matrixPath h b k => s.strike h fun g => { g with tile := flipGroup g.tile b k }
  | .hop l k =>
    if l < scalarBase 128 then { s with mem := writeCell s.mem l (flipByte (readCell s.mem l) k) } else s

end Sys2Proof.Machine
end

