-- ==== Sys2Proof/Machine/Masks.lean ====
section
/-! DEFINITION. Masks.lean: VWHILE and the MASK instructions of the scalar stream (R74, R81, R131 to R135). -/

namespace Sys2Proof.Machine

/-- The governing mask of a MASK instruction (R132). -/
def State.gov (s : State) (g : BitVec 3) : Mask := s.hart.mask (g.setWidth 5)

/-- A mask with the governing bits of the elements for which `t` holds, every element active (R74); at SEW 4 the AND of
both elements of a byte. -/
def maskOfElems (w n : Nat) (t : Nat → Bool) : Mask :=
  upTo n 0 fun m i =>
    if w = 4 then (if i % 2 = 0 ∧ t i = true ∧ t (i + 1) = true then m ||| (1 <<< (i / 2)) else m)
    else if t i then m ||| (1 <<< govBit w i) else m

/-- A mask instruction that writes `md`: OWNED when engine work owns it (R135). -/
def State.maskWrite (s : State) (md : BitVec 5) (xs masks : List (BitVec 5)) (v : Mask) : State :=
  if s.hart.busyX xs || s.hart.busyMask (md :: masks) then s
  else if (s.hart.owner.getD md.toNat none).isSome then s.refuse .owned (md.setWidth 64)
  else s.complete 4 fun t => t.onHart fun h => h.setMask md v

/-- A VWHILE instruction: the test on the unbounded sum of xa and i (R131). -/
def State.while (s : State) (md a b : BitVec 5) (test : Nat → Bool) : State :=
  s.maskWrite md [a, b] [] (maskOfElems s.hart.elem.width s.hart.vmax test)

/-- `whileLt` (R131). -/
def execWhileLt (m a b : BitVec 5) (s : State) : Host.Outcome State Fault Refusal :=
  .next (s.while m a b fun i => decide ((s.x a).toInt + i < (s.x b).toInt))

/-- `whileLe` (R131). -/
def execWhileLe (m a b : BitVec 5) (s : State) : Host.Outcome State Fault Refusal :=
  .next (s.while m a b fun i => decide ((s.x a).toInt + i ≤ (s.x b).toInt))

/-- `whileLtn` (R131). -/
def execWhileLtn (m a b : BitVec 5) (s : State) : Host.Outcome State Fault Refusal :=
  .next (s.while m a b fun i => decide ((s.x a).toNat + i < (s.x b).toNat))

/-- `whileLen` (R131). -/
def execWhileLen (m a b : BitVec 5) (s : State) : Host.Outcome State Fault Refusal :=
  .next (s.while m a b fun i => decide ((s.x a).toNat + i ≤ (s.x b).toNat))

/-- `mand` (R133). -/
def execMand (d a b : BitVec 5) (g : BitVec 3) (s : State) : Host.Outcome State Fault Refusal :=
  .next (s.maskWrite d [] [a, b, g.setWidth 5] (s.hart.mask a &&& s.hart.mask b &&& s.gov g))

/-- `mor` (R133). -/
def execMor (d a b : BitVec 5) (g : BitVec 3) (s : State) : Host.Outcome State Fault Refusal :=
  .next (s.maskWrite d [] [a, b, g.setWidth 5] ((s.hart.mask a ||| s.hart.mask b) &&& s.gov g))

/-- `mxor` (R133). -/
def execMxor (d a b : BitVec 5) (g : BitVec 3) (s : State) : Host.Outcome State Fault Refusal :=
  .next (s.maskWrite d [] [a, b, g.setWidth 5] ((s.hart.mask a ^^^ s.hart.mask b) &&& s.gov g))

/-- `mandn` (R133). -/
def execMandn (d a b : BitVec 5) (g : BitVec 3) (s : State) : Host.Outcome State Fault Refusal :=
  .next (s.maskWrite d [] [a, b, g.setWidth 5] (s.hart.mask a &&& ~~~s.hart.mask b &&& s.gov g))

/-- `mnot` (R133). -/
def execMnot (d a : BitVec 5) (g : BitVec 3) (s : State) : Host.Outcome State Fault Refusal :=
  .next (s.maskWrite d [] [a, g.setWidth 5] (~~~s.hart.mask a &&& s.gov g))

/-- `mmov` (R133). -/
def execMmov (d a : BitVec 5) (g : BitVec 3) (s : State) : Host.Outcome State Fault Refusal :=
  .next (s.maskWrite d [] [a, g.setWidth 5] (s.hart.mask a &&& s.gov g))

/-- The bits below the limit that FFX sets (R133). -/
def Hart.belowFfx (h : Hart) : Mask :=
  let lim := if h.elem.width = 4 then h.csr.ffx.toNat / 2 else h.csr.ffx.toNat * h.elem.width / 8
  BitVec.ofNat 8192 (2 ^ lim - 1)

/-- `mff` (R133). -/
def execMff (d a : BitVec 5) (g : BitVec 3) (s : State) : Host.Outcome State Fault Refusal :=
  .next (if !s.hart.still then s
    else s.maskWrite d [] [a, g.setWidth 5] (s.hart.mask a &&& s.gov g &&& s.hart.belowFfx))

/-- `mset` (R133). -/
def execMset (d : BitVec 5) (g : BitVec 3) (s : State) : Host.Outcome State Fault Refusal :=
  .next (s.maskWrite d [] [g.setWidth 5] (s.gov g))

/-- `mclr` (R133). -/
def execMclr (d : BitVec 5) (g : BitVec 3) (s : State) : Host.Outcome State Fault Refusal :=
  .next (s.maskWrite d [] [g.setWidth 5] 0)

/-- The governing bit of the element that a register names; none at or above VMAX (R134). -/
def Hart.elemBit (h : Hart) (x : Word) : Mask :=
  if x.toNat < h.vmax then 1 <<< govBit h.elem.width x.toNat else 0

/-- The elements whose governing bits in a mask are 1, ascending (R134). -/
def Hart.elemsOf (h : Hart) (m : Mask) : List Nat := (List.range h.vmax).filter fun i => m.getLsbD (govBit h.elem.width i)

/-- `mbset` (R134). -/
def execMbset (d a : BitVec 5) (s : State) : Host.Outcome State Fault Refusal :=
  .next (s.maskWrite d [a] [] (s.hart.mask d ||| s.hart.elemBit (s.x a)))

/-- `mbclr` (R134). -/
def execMbclr (d a : BitVec 5) (s : State) : Host.Outcome State Fault Refusal :=
  .next (s.maskWrite d [a] [] (s.hart.mask d &&& ~~~s.hart.elemBit (s.x a)))

/-- A MASK instruction that writes an x register (R134). -/
def State.maskRead (s : State) (d a : BitVec 5) (g : BitVec 3) (v : Word) : State :=
  if s.hart.busyMask [a, g.setWidth 5] then s else s.compute 4 d [] v

/-- `mpop` (R134). -/
def execMpop (d a : BitVec 5) (g : BitVec 3) (s : State) : Host.Outcome State Fault Refusal :=
  .next (s.maskRead d a g (BitVec.ofNat 64 (s.hart.elemsOf (s.hart.mask a &&& s.gov g)).length))

/-- `mfirst` (R134). -/
def execMfirst (d a : BitVec 5) (g : BitVec 3) (s : State) : Host.Outcome State Fault Refusal :=
  .next (s.maskRead d a g
    (match (s.hart.elemsOf (s.hart.mask a &&& s.gov g)).head? with
      | some i => BitVec.ofNat 64 i
      | none => -1))

/-- `mbrk` (R134). -/
def execMbrk (d a : BitVec 5) (g : BitVec 3) (s : State) : Host.Outcome State Fault Refusal :=
  let t := s.hart.mask a &&& s.gov g
  .next (s.maskWrite d [] [a, g.setWidth 5]
    (match (s.hart.elemsOf t).head? with
      | some i => t &&& ~~~s.hart.elemBit (BitVec.ofNat 64 i)
      | none => t))

end Sys2Proof.Machine
end

