-- ==== Sys2Proof/Machine/Scalar.lean ====
section
/-! DEFINITION. Scalar.lean: the integer instructions of the scalar pipe (R93 to R97) and their compressed forms (R46).
Each result is a definition of its own, on the values of the sources. -/

namespace Sys2Proof.Machine

/-! ## Results (R93 to R95) -/

/-- The result of `add` (R93). -/
def addValue (a b : Word) : Word := a + b

/-- The result of `sub` (R93). -/
def subValue (a b : Word) : Word := a - b

/-- The result of `and` (R93). -/
def andValue (a b : Word) : Word := a &&& b

/-- The result of `or` (R93). -/
def orValue (a b : Word) : Word := a ||| b

/-- The result of `xor` (R93). -/
def xorValue (a b : Word) : Word := a ^^^ b

/-- The result of `andn` (R93). -/
def andnValue (a b : Word) : Word := a &&& ~~~b

/-- The result of `sll` (R93). -/
def sllValue (a b : Word) : Word := a <<< (b.toNat % 64)

/-- The result of `srl` (R93). -/
def srlValue (a b : Word) : Word := a >>> (b.toNat % 64)

/-- The result of `sra` (R93). -/
def sraValue (a b : Word) : Word := a.sshiftRight (b.toNat % 64)

/-- The result of `slt` (R93). -/
def sltValue (a b : Word) : Word := ofBool (a.slt b)

/-- The result of `sltn` (R93). -/
def sltnValue (a b : Word) : Word := ofBool (a.ult b)

/-- The result of `min` (R93). -/
def minValue (a b : Word) : Word := if a.sle b then a else b

/-- The result of `minn` (R93). -/
def minnValue (a b : Word) : Word := if a.ule b then a else b

/-- The result of `max` (R93). -/
def maxValue (a b : Word) : Word := if a.sle b then b else a

/-- The result of `maxn` (R93). -/
def maxnValue (a b : Word) : Word := if a.ule b then b else a

/-- The result of `mul` (R93). -/
def mulValue (a b : Word) : Word := a * b

/-- The result of `mulh` (R93). -/
def mulhValue (a b : Word) : Word := BitVec.ofInt 64 (a.toInt * b.toInt / 2 ^ 64)

/-- The result of `mulhn` (R93). -/
def mulhnValue (a b : Word) : Word := BitVec.ofNat 64 (a.toNat * b.toNat / 2 ^ 64)

/-- The result of `div` (R94). -/
def divValue (a b : Word) : Word := BitVec.ofNat 64 (divS 64 a.toNat b.toNat)

/-- The result of `divn` (R94). -/
def divnValue (a b : Word) : Word := BitVec.ofNat 64 (divN 64 a.toNat b.toNat)

/-- The result of `rem` (R94). -/
def remValue (a b : Word) : Word := BitVec.ofNat 64 (remS 64 a.toNat b.toNat)

/-- The result of `remn` (R94). -/
def remnValue (a b : Word) : Word := BitVec.ofNat 64 (remN a.toNat b.toNat)

/-- The result of `addw` (R95). -/
def addwValue (a b : Word) : Word := sext (low32 a + low32 b)

/-- The result of `subw` (R95). -/
def subwValue (a b : Word) : Word := sext (low32 a - low32 b)

/-- The result of `sllw` (R95). -/
def sllwValue (a b : Word) : Word := sext (low32 a <<< (b.toNat % 32))

/-- The result of `srlw` (R95). -/
def srlwValue (a b : Word) : Word := sext (low32 a >>> (b.toNat % 32))

/-- The result of `sraw` (R95). -/
def srawValue (a b : Word) : Word := sext ((low32 a).sshiftRight (b.toNat % 32))

/-- The result of `mulw` (R95). -/
def mulwValue (a b : Word) : Word := sext (low32 a * low32 b)

/-- The result of `divw` (R95). -/
def divwValue (a b : Word) : Word := sext (BitVec.ofNat 32 (divS 32 (low32 a).toNat (low32 b).toNat))

/-- The result of `divnw` (R95). -/
def divnwValue (a b : Word) : Word := sext (BitVec.ofNat 32 (divN 32 (low32 a).toNat (low32 b).toNat))

/-- The result of `remw` (R95). -/
def remwValue (a b : Word) : Word := sext (BitVec.ofNat 32 (remS 32 (low32 a).toNat (low32 b).toNat))

/-- The result of `remnw` (R95). -/
def remnwValue (a b : Word) : Word := sext (BitVec.ofNat 32 (remN (low32 a).toNat (low32 b).toNat))

/-- The result of `clz` (R93). -/
def clzValue (a : Word) : Word := BitVec.ofNat 64 (leadingZeros 64 a.toNat)

/-- The result of `ctz` (R93). -/
def ctzValue (a : Word) : Word := BitVec.ofNat 64 (trailingZeros a.toNat 64)

/-- The result of `popc` (R93). -/
def popcValue (a : Word) : Word := BitVec.ofNat 64 (ones a.toNat 64)

/-- The result of `sextB` (R93). -/
def sextBValue (a : Word) : Word := sext (a.setWidth 8)

/-- The result of `sextH` (R93). -/
def sextHValue (a : Word) : Word := sext (a.setWidth 16)

/-- The result of `sextW` (R93). -/
def sextWValue (a : Word) : Word := sext (a.setWidth 32)

/-- The result of `zextW` (R93). -/
def zextWValue (a : Word) : Word := zext (a.setWidth 32)

/-- The result of `addi` (R96). -/
def addiValue (a : Word) (imm : BitVec 13) : Word := a + sext imm

/-- The result of `andi` (R96). -/
def andiValue (a : Word) (imm : BitVec 10) : Word := a &&& sext imm

/-- The result of `ori` (R96). -/
def oriValue (a : Word) (imm : BitVec 10) : Word := a ||| sext imm

/-- The result of `xori` (R96). -/
def xoriValue (a : Word) (imm : BitVec 10) : Word := a ^^^ sext imm

/-- The result of `slti` (R96). -/
def sltiValue (a : Word) (imm : BitVec 10) : Word := ofBool (a.slt (sext imm))

/-- The result of `sltni` (R96). -/
def sltniValue (a : Word) (imm : BitVec 10) : Word := ofBool (a.ult (sext imm))

/-- The result of `slli` (R96). -/
def slliValue (a : Word) (imm : BitVec 6) : Word := a <<< imm.toNat

/-- The result of `srli` (R96). -/
def srliValue (a : Word) (imm : BitVec 6) : Word := a >>> imm.toNat

/-- The result of `srai` (R96). -/
def sraiValue (a : Word) (imm : BitVec 6) : Word := a.sshiftRight imm.toNat

/-- The result of `lhi` (R97). -/
def lhiValue (imm : BitVec 18) : Word := sext imm <<< 13

/-- The result of `pcadd` (R97). -/
def pcaddValue (pc : Word) (imm : BitVec 18) : Word := pc + sext imm <<< 13

/-! ## Register forms -/

/-- `add` (R93). -/
def execAdd (d a b : BitVec 5) (s : State) : Host.Outcome State Fault Refusal :=
  .next (s.compute 4 d [a, b] (addValue (s.x a) (s.x b)))

/-- `sub` (R93). -/
def execSub (d a b : BitVec 5) (s : State) : Host.Outcome State Fault Refusal :=
  .next (s.compute 4 d [a, b] (subValue (s.x a) (s.x b)))

/-- `and` (R93). -/
def execAnd (d a b : BitVec 5) (s : State) : Host.Outcome State Fault Refusal :=
  .next (s.compute 4 d [a, b] (andValue (s.x a) (s.x b)))

/-- `or` (R93). -/
def execOr (d a b : BitVec 5) (s : State) : Host.Outcome State Fault Refusal :=
  .next (s.compute 4 d [a, b] (orValue (s.x a) (s.x b)))

/-- `xor` (R93). -/
def execXor (d a b : BitVec 5) (s : State) : Host.Outcome State Fault Refusal :=
  .next (s.compute 4 d [a, b] (xorValue (s.x a) (s.x b)))

/-- `andn` (R93). -/
def execAndn (d a b : BitVec 5) (s : State) : Host.Outcome State Fault Refusal :=
  .next (s.compute 4 d [a, b] (andnValue (s.x a) (s.x b)))

/-- `sll` (R93). -/
def execSll (d a b : BitVec 5) (s : State) : Host.Outcome State Fault Refusal :=
  .next (s.compute 4 d [a, b] (sllValue (s.x a) (s.x b)))

/-- `srl` (R93). -/
def execSrl (d a b : BitVec 5) (s : State) : Host.Outcome State Fault Refusal :=
  .next (s.compute 4 d [a, b] (srlValue (s.x a) (s.x b)))

/-- `sra` (R93). -/
def execSra (d a b : BitVec 5) (s : State) : Host.Outcome State Fault Refusal :=
  .next (s.compute 4 d [a, b] (sraValue (s.x a) (s.x b)))

/-- `slt` (R93). -/
def execSlt (d a b : BitVec 5) (s : State) : Host.Outcome State Fault Refusal :=
  .next (s.compute 4 d [a, b] (sltValue (s.x a) (s.x b)))

/-- `sltn` (R93). -/
def execSltn (d a b : BitVec 5) (s : State) : Host.Outcome State Fault Refusal :=
  .next (s.compute 4 d [a, b] (sltnValue (s.x a) (s.x b)))

/-- `min` (R93). -/
def execMin (d a b : BitVec 5) (s : State) : Host.Outcome State Fault Refusal :=
  .next (s.compute 4 d [a, b] (minValue (s.x a) (s.x b)))

/-- `minn` (R93). -/
def execMinn (d a b : BitVec 5) (s : State) : Host.Outcome State Fault Refusal :=
  .next (s.compute 4 d [a, b] (minnValue (s.x a) (s.x b)))

/-- `max` (R93). -/
def execMax (d a b : BitVec 5) (s : State) : Host.Outcome State Fault Refusal :=
  .next (s.compute 4 d [a, b] (maxValue (s.x a) (s.x b)))

/-- `maxn` (R93). -/
def execMaxn (d a b : BitVec 5) (s : State) : Host.Outcome State Fault Refusal :=
  .next (s.compute 4 d [a, b] (maxnValue (s.x a) (s.x b)))

/-- `mul` (R93). -/
def execMul (d a b : BitVec 5) (s : State) : Host.Outcome State Fault Refusal :=
  .next (s.compute 4 d [a, b] (mulValue (s.x a) (s.x b)))

/-- `mulh` (R93). -/
def execMulh (d a b : BitVec 5) (s : State) : Host.Outcome State Fault Refusal :=
  .next (s.compute 4 d [a, b] (mulhValue (s.x a) (s.x b)))

/-- `mulhn` (R93). -/
def execMulhn (d a b : BitVec 5) (s : State) : Host.Outcome State Fault Refusal :=
  .next (s.compute 4 d [a, b] (mulhnValue (s.x a) (s.x b)))

/-- `div` (R94). -/
def execDiv (d a b : BitVec 5) (s : State) : Host.Outcome State Fault Refusal :=
  .next (s.compute 4 d [a, b] (divValue (s.x a) (s.x b)))

/-- `divn` (R94). -/
def execDivn (d a b : BitVec 5) (s : State) : Host.Outcome State Fault Refusal :=
  .next (s.compute 4 d [a, b] (divnValue (s.x a) (s.x b)))

/-- `rem` (R94). -/
def execRem (d a b : BitVec 5) (s : State) : Host.Outcome State Fault Refusal :=
  .next (s.compute 4 d [a, b] (remValue (s.x a) (s.x b)))

/-- `remn` (R94). -/
def execRemn (d a b : BitVec 5) (s : State) : Host.Outcome State Fault Refusal :=
  .next (s.compute 4 d [a, b] (remnValue (s.x a) (s.x b)))

/-- `addw` (R95). -/
def execAddw (d a b : BitVec 5) (s : State) : Host.Outcome State Fault Refusal :=
  .next (s.compute 4 d [a, b] (addwValue (s.x a) (s.x b)))

/-- `subw` (R95). -/
def execSubw (d a b : BitVec 5) (s : State) : Host.Outcome State Fault Refusal :=
  .next (s.compute 4 d [a, b] (subwValue (s.x a) (s.x b)))

/-- `sllw` (R95). -/
def execSllw (d a b : BitVec 5) (s : State) : Host.Outcome State Fault Refusal :=
  .next (s.compute 4 d [a, b] (sllwValue (s.x a) (s.x b)))

/-- `srlw` (R95). -/
def execSrlw (d a b : BitVec 5) (s : State) : Host.Outcome State Fault Refusal :=
  .next (s.compute 4 d [a, b] (srlwValue (s.x a) (s.x b)))

/-- `sraw` (R95). -/
def execSraw (d a b : BitVec 5) (s : State) : Host.Outcome State Fault Refusal :=
  .next (s.compute 4 d [a, b] (srawValue (s.x a) (s.x b)))

/-- `mulw` (R95). -/
def execMulw (d a b : BitVec 5) (s : State) : Host.Outcome State Fault Refusal :=
  .next (s.compute 4 d [a, b] (mulwValue (s.x a) (s.x b)))

/-- `divw` (R95). -/
def execDivw (d a b : BitVec 5) (s : State) : Host.Outcome State Fault Refusal :=
  .next (s.compute 4 d [a, b] (divwValue (s.x a) (s.x b)))

/-- `divnw` (R95). -/
def execDivnw (d a b : BitVec 5) (s : State) : Host.Outcome State Fault Refusal :=
  .next (s.compute 4 d [a, b] (divnwValue (s.x a) (s.x b)))

/-- `remw` (R95). -/
def execRemw (d a b : BitVec 5) (s : State) : Host.Outcome State Fault Refusal :=
  .next (s.compute 4 d [a, b] (remwValue (s.x a) (s.x b)))

/-- `remnw` (R95). -/
def execRemnw (d a b : BitVec 5) (s : State) : Host.Outcome State Fault Refusal :=
  .next (s.compute 4 d [a, b] (remnwValue (s.x a) (s.x b)))

/-- `clz` (R93). -/
def execClz (d a : BitVec 5) (s : State) : Host.Outcome State Fault Refusal :=
  .next (s.compute 4 d [a] (clzValue (s.x a)))

/-- `ctz` (R93). -/
def execCtz (d a : BitVec 5) (s : State) : Host.Outcome State Fault Refusal :=
  .next (s.compute 4 d [a] (ctzValue (s.x a)))

/-- `popc` (R93). -/
def execPopc (d a : BitVec 5) (s : State) : Host.Outcome State Fault Refusal :=
  .next (s.compute 4 d [a] (popcValue (s.x a)))

/-- `sextB` (R93). -/
def execSextB (d a : BitVec 5) (s : State) : Host.Outcome State Fault Refusal :=
  .next (s.compute 4 d [a] (sextBValue (s.x a)))

/-- `sextH` (R93). -/
def execSextH (d a : BitVec 5) (s : State) : Host.Outcome State Fault Refusal :=
  .next (s.compute 4 d [a] (sextHValue (s.x a)))

/-- `sextW` (R93). -/
def execSextW (d a : BitVec 5) (s : State) : Host.Outcome State Fault Refusal :=
  .next (s.compute 4 d [a] (sextWValue (s.x a)))

/-- `zextW` (R93). -/
def execZextW (d a : BitVec 5) (s : State) : Host.Outcome State Fault Refusal :=
  .next (s.compute 4 d [a] (zextWValue (s.x a)))

/-! ## Immediate forms -/

/-- `addi` (R96). -/
def execAddi (d a : BitVec 5) (imm : BitVec 13) (s : State) : Host.Outcome State Fault Refusal :=
  .next (s.compute 4 d [a] (addiValue (s.x a) imm))

/-- `andi` (R96). -/
def execAndi (d a : BitVec 5) (imm : BitVec 10) (s : State) : Host.Outcome State Fault Refusal :=
  .next (s.compute 4 d [a] (andiValue (s.x a) imm))

/-- `ori` (R96). -/
def execOri (d a : BitVec 5) (imm : BitVec 10) (s : State) : Host.Outcome State Fault Refusal :=
  .next (s.compute 4 d [a] (oriValue (s.x a) imm))

/-- `xori` (R96). -/
def execXori (d a : BitVec 5) (imm : BitVec 10) (s : State) : Host.Outcome State Fault Refusal :=
  .next (s.compute 4 d [a] (xoriValue (s.x a) imm))

/-- `slti` (R96). -/
def execSlti (d a : BitVec 5) (imm : BitVec 10) (s : State) : Host.Outcome State Fault Refusal :=
  .next (s.compute 4 d [a] (sltiValue (s.x a) imm))

/-- `sltni` (R96). -/
def execSltni (d a : BitVec 5) (imm : BitVec 10) (s : State) : Host.Outcome State Fault Refusal :=
  .next (s.compute 4 d [a] (sltniValue (s.x a) imm))

/-- `slli` (R96). -/
def execSlli (d a : BitVec 5) (imm : BitVec 6) (s : State) : Host.Outcome State Fault Refusal :=
  .next (s.compute 4 d [a] (slliValue (s.x a) imm))

/-- `srli` (R96). -/
def execSrli (d a : BitVec 5) (imm : BitVec 6) (s : State) : Host.Outcome State Fault Refusal :=
  .next (s.compute 4 d [a] (srliValue (s.x a) imm))

/-- `srai` (R96). -/
def execSrai (d a : BitVec 5) (imm : BitVec 6) (s : State) : Host.Outcome State Fault Refusal :=
  .next (s.compute 4 d [a] (sraiValue (s.x a) imm))

/-- `lhi` (R97). -/
def execLhi (d : BitVec 5) (imm : BitVec 18) (s : State) : Host.Outcome State Fault Refusal :=
  .next (s.compute 4 d [] (lhiValue imm))

/-- `pcadd` (R97). -/
def execPcadd (d : BitVec 5) (imm : BitVec 18) (s : State) : Host.Outcome State Fault Refusal :=
  .next (s.compute 4 d [] (pcaddValue s.hart.pc imm))

/-! ## Compressed forms (R46) -/

/-- `cAddi` (R46). -/
def execCAddi (d : BitVec 3) (imm : BitVec 7) (s : State) : Host.Outcome State Fault Refusal :=
  .next (s.compute 2 (cReg d) [cReg d] (addiValue (s.x (cReg d)) (imm.signExtend 13)))

/-- `cLi` (R46). -/
def execCLi (d : BitVec 3) (imm : BitVec 7) (s : State) : Host.Outcome State Fault Refusal :=
  .next (s.compute 2 (cReg d) [] (addiValue 0 (imm.signExtend 13)))

/-- `cLhi` (R46). -/
def execCLhi (d : BitVec 3) (imm : BitVec 7) (s : State) : Host.Outcome State Fault Refusal :=
  .next (s.compute 2 (cReg d) [] (lhiValue (imm.signExtend 18)))

/-- `cSlli` (R46). -/
def execCSlli (d : BitVec 3) (imm : BitVec 6) (s : State) : Host.Outcome State Fault Refusal :=
  .next (s.compute 2 (cReg d) [cReg d] (slliValue (s.x (cReg d)) imm))

/-- `cSrli` (R46). -/
def execCSrli (d : BitVec 3) (imm : BitVec 6) (s : State) : Host.Outcome State Fault Refusal :=
  .next (s.compute 2 (cReg d) [cReg d] (srliValue (s.x (cReg d)) imm))

/-- `cSrai` (R46). -/
def execCSrai (d : BitVec 3) (imm : BitVec 6) (s : State) : Host.Outcome State Fault Refusal :=
  .next (s.compute 2 (cReg d) [cReg d] (sraiValue (s.x (cReg d)) imm))

/-- `cAdd` (R46). -/
def execCAdd (d a : BitVec 3) (s : State) : Host.Outcome State Fault Refusal :=
  .next (s.compute 2 (cReg d) [cReg d, cReg a] (addValue (s.x (cReg d)) (s.x (cReg a))))

/-- `cSub` (R46). -/
def execCSub (d a : BitVec 3) (s : State) : Host.Outcome State Fault Refusal :=
  .next (s.compute 2 (cReg d) [cReg d, cReg a] (subValue (s.x (cReg d)) (s.x (cReg a))))

/-- `cAnd` (R46). -/
def execCAnd (d a : BitVec 3) (s : State) : Host.Outcome State Fault Refusal :=
  .next (s.compute 2 (cReg d) [cReg d, cReg a] (andValue (s.x (cReg d)) (s.x (cReg a))))

/-- `cOr` (R46). -/
def execCOr (d a : BitVec 3) (s : State) : Host.Outcome State Fault Refusal :=
  .next (s.compute 2 (cReg d) [cReg d, cReg a] (orValue (s.x (cReg d)) (s.x (cReg a))))

/-- `cXor` (R46). -/
def execCXor (d a : BitVec 3) (s : State) : Host.Outcome State Fault Refusal :=
  .next (s.compute 2 (cReg d) [cReg d, cReg a] (xorValue (s.x (cReg d)) (s.x (cReg a))))

/-- `cMv` (R46). -/
def execCMv (d a : BitVec 3) (s : State) : Host.Outcome State Fault Refusal :=
  .next (s.compute 2 (cReg d) [cReg a] (addValue 0 (s.x (cReg a))))

/-- `cNop` (R46). -/
def execCNop (s : State) : Host.Outcome State Fault Refusal :=
  .next (s.complete 2 fun t => t)

end Sys2Proof.Machine
end

