-- ==== Sys2Proof/Machine/ScalarFloat.lean ====
section
/-! DEFINITION. ScalarFloat.lean: scalar floating point (R22, R109, R110). -/

namespace Sys2Proof.Machine

/-- The format of fmt2 (R54): FP16, BF16, FP32, FP64. -/
def scalarFmt (t : BitVec 2) : Elem :=
  match t.toNat with
  | 0 => .fp16
  | 1 => .bf16
  | 2 => .fp32
  | _ => .fp64

/-- A scalar floating operand: the low bits of its register (R22). -/
def State.f (s : State) (e : Elem) (r : BitVec 5) : Nat := (s.x r).toNat % 2 ^ e.width

/-- The rounding mode of a scalar floating instruction (R26). -/
def State.rm (s : State) : Nat := s.hart.csr.rm.toNat

/-- A scalar floating instruction: its result, upper bits zero, and its flags (R22, R26). -/
def State.floating (s : State) (d : BitVec 5) (srcs : List (BitVec 5)) (r : Nat × Flags) : State :=
  if s.hart.busyX (d :: srcs) then s
  else s.complete 4 fun t => (t.setX d (BitVec.ofNat 64 r.1)).raise r.2

/-- The result of a compare: NV when it is ordered and an operand is a NaN (R109). -/
def compareF (f : Elem) (ordered : Bool) (test : FVal → FVal → Bool) (a b : Nat) : Nat × Flags :=
  let x := decodeF f a
  let y := decodeF f b
  (if test x y then 1 else 0, if ordered && (x.isNan || y.isNan) then flagNV else noFlags)

/-- a ≤ b (R109). -/
def leF (a b : FVal) : Bool := ltF a b || eqF a b

/-- `fcvt.ff` (R32, R109): with equal formats the bits pass, a NaN made canonical. -/
def convertFf (f g : Elem) (rm : Nat) (sat : Bool) (a : Nat) : Nat × Flags :=
  if f = g then (if (decodeF f a).isNan then f.nanBits else a, noFlags) else toFloat f rm sat (decodeF g a)

/-- `fadd` (R109). -/
def execFadd (t : BitVec 2) (d a b : BitVec 5) (s : State) : Host.Outcome State Fault Refusal :=
  let f := scalarFmt t
  .next (s.floating d [a, b] (fAdd f s.rm (s.f f a) (s.f f b)))

/-- `fsub` (R109). -/
def execFsub (t : BitVec 2) (d a b : BitVec 5) (s : State) : Host.Outcome State Fault Refusal :=
  let f := scalarFmt t
  .next (s.floating d [a, b] (fSub f s.rm (s.f f a) (s.f f b)))

/-- `fmul` (R109). -/
def execFmul (t : BitVec 2) (d a b : BitVec 5) (s : State) : Host.Outcome State Fault Refusal :=
  let f := scalarFmt t
  .next (s.floating d [a, b] (fMul f s.rm (s.f f a) (s.f f b)))

/-- `fdiv` (R109). -/
def execFdiv (t : BitVec 2) (d a b : BitVec 5) (s : State) : Host.Outcome State Fault Refusal :=
  let f := scalarFmt t
  .next (s.floating d [a, b] (fDiv f s.rm (s.f f a) (s.f f b)))

/-- `fsqrt` (R109). -/
def execFsqrt (t : BitVec 2) (d a : BitVec 5) (s : State) : Host.Outcome State Fault Refusal :=
  let f := scalarFmt t
  .next (s.floating d [a] (fSqrt f s.rm (s.f f a)))

/-- `fmin` (R109). -/
def execFmin (t : BitVec 2) (d a b : BitVec 5) (s : State) : Host.Outcome State Fault Refusal :=
  let f := scalarFmt t
  .next (s.floating d [a, b] (fMinmax f false (s.f f a) (s.f f b)))

/-- `fmax` (R109). -/
def execFmax (t : BitVec 2) (d a b : BitVec 5) (s : State) : Host.Outcome State Fault Refusal :=
  let f := scalarFmt t
  .next (s.floating d [a, b] (fMinmax f true (s.f f a) (s.f f b)))

/-- `fsgnj` (R109). -/
def execFsgnj (t : BitVec 2) (d a b : BitVec 5) (s : State) : Host.Outcome State Fault Refusal :=
  let f := scalarFmt t
  .next (s.floating d [a, b] ((fSgnj f 0 (s.f f a) (s.f f b), noFlags)))

/-- `fsgnjn` (R109). -/
def execFsgnjn (t : BitVec 2) (d a b : BitVec 5) (s : State) : Host.Outcome State Fault Refusal :=
  let f := scalarFmt t
  .next (s.floating d [a, b] ((fSgnj f 1 (s.f f a) (s.f f b), noFlags)))

/-- `fsgnjx` (R109). -/
def execFsgnjx (t : BitVec 2) (d a b : BitVec 5) (s : State) : Host.Outcome State Fault Refusal :=
  let f := scalarFmt t
  .next (s.floating d [a, b] ((fSgnj f 2 (s.f f a) (s.f f b), noFlags)))

/-- `feq` (R109). -/
def execFeq (t : BitVec 2) (d a b : BitVec 5) (s : State) : Host.Outcome State Fault Refusal :=
  let f := scalarFmt t
  .next (s.floating d [a, b] (compareF f false eqF (s.f f a) (s.f f b)))

/-- `flt` (R109). -/
def execFlt (t : BitVec 2) (d a b : BitVec 5) (s : State) : Host.Outcome State Fault Refusal :=
  let f := scalarFmt t
  .next (s.floating d [a, b] (compareF f true ltF (s.f f a) (s.f f b)))

/-- `fle` (R109). -/
def execFle (t : BitVec 2) (d a b : BitVec 5) (s : State) : Host.Outcome State Fault Refusal :=
  let f := scalarFmt t
  .next (s.floating d [a, b] (compareF f true leF (s.f f a) (s.f f b)))

/-- `fclass` (R109). -/
def execFclass (t : BitVec 2) (d a : BitVec 5) (s : State) : Host.Outcome State Fault Refusal :=
  let f := scalarFmt t
  .next (s.floating d [a] ((fClass f (s.f f a), noFlags)))

/-- `fcvtI` (R109). -/
def execFcvtI (t : BitVec 2) (u : BitVec 1) (d a : BitVec 5) (s : State) : Host.Outcome State Fault Refusal :=
  let f := scalarFmt t
  .next (s.floating d [a] (toInteger 64 (u == 0) s.rm (decodeF f (s.f f a))))

/-- `fcvtF` (R109). -/
def execFcvtF (t : BitVec 2) (u : BitVec 1) (d a : BitVec 5) (s : State) : Host.Outcome State Fault Refusal :=
  let f := scalarFmt t
  .next (s.floating d [a] (ofInteger f s.rm s.hart.csr.satBit (intOf 64 (u == 0) (s.x a).toNat)))

/-- `fcvtFf` (R109). -/
def execFcvtFf (t g : BitVec 2) (d a : BitVec 5) (s : State) : Host.Outcome State Fault Refusal :=
  let f := scalarFmt t
  .next (s.floating d [a] (convertFf f (scalarFmt g) s.rm s.hart.csr.satBit (s.f (scalarFmt g) a)))

/-- The format of a fused operation: FP32 or FP64 (R110). -/
def fusedFmt (f : BitVec 1) : Elem := if f = 0 then .fp32 else .fp64

/-- `fma` (R110). -/
def execFma (f : BitVec 1) (d a b e : BitVec 5) (s : State) : Host.Outcome State Fault Refusal :=
  let k := fusedFmt f
  .next (s.floating d [a, b, e] (fFma k s.rm false false (s.f k a) (s.f k b) (s.f k e)))

/-- `fms` (R110). -/
def execFms (f : BitVec 1) (d a b e : BitVec 5) (s : State) : Host.Outcome State Fault Refusal :=
  let k := fusedFmt f
  .next (s.floating d [a, b, e] (fFma k s.rm false true (s.f k a) (s.f k b) (s.f k e)))

/-- `fnma` (R110). -/
def execFnma (f : BitVec 1) (d a b e : BitVec 5) (s : State) : Host.Outcome State Fault Refusal :=
  let k := fusedFmt f
  .next (s.floating d [a, b, e] (fFma k s.rm true true (s.f k a) (s.f k b) (s.f k e)))

/-- `fnms` (R110). -/
def execFnms (f : BitVec 1) (d a b e : BitVec 5) (s : State) : Host.Outcome State Fault Refusal :=
  let k := fusedFmt f
  .next (s.floating d [a, b, e] (fFma k s.rm true false (s.f k a) (s.f k b) (s.f k e)))

end Sys2Proof.Machine
end

