-- ==== Sys2Proof/Machine/Window.lean ====
section
/-! DEFINITION. Window.lean: opening and dropping an accumulation window (R203 to R205, R207). `vwred` and `vwmerge` are
convoys of Vector.lean. -/

namespace Sys2Proof.Machine

/-- The byte of the own core's scratchpad that an address reaches through the own window or the own core's aperture
(R205, R239). -/
def State.ownByte (s : State) (va : Word) : Option Nat :=
  if !inLocal va then none
  else
    let o := (low32 va).toNat
    match (field va 32 4).toNat with
    | 0 => if o < scratchBytes then some o else none
    | 1 =>
      if o / 0x400000 = ((coreOf s.hart.id).extractLsb' 0 2).toNat ∧ o % 0x400000 < scratchBytes then some (o % 0x400000)
      else none
    | _ => none

/-- The checks of `vwin` in their order (R205): entry count, copy area, table. -/
def State.windowTrap (s : State) (base count area : Word) : Option (Cause × Word) :=
  let e := count.toNat
  let w := s.hart.elem.width / 8
  let o := area.toNat - 0xFFFFFFF000000000
  if e = 0 ∨ 65536 < e then some (.bound, count)
  else if area.toNat < 0xFFFFFFF000000000 ∨ scratchBytes < o + 32 * e * w ∨ area.toNat % 256 ≠ 0 then some (.access, area)
  else if !canonical base || !canonical (base + BitVec.ofNat 64 (e * w - 1)) then some (.access, base)
  else if (List.range (e * w)).any fun k =>
      match s.ownByte (base + BitVec.ofNat 64 k) with
      | some b => decide (o ≤ b) && decide (b < o + 32 * e * w)
      | none => false then some (.access, base)
  else none

/-- The descriptor recorded and every copy entry set to the identity (R205). -/
def State.openWindow (s : State) (op : BitVec 5) (base count area : Word) : State :=
  let w := s.hart.elem.width / 8
  let at_ := scratchBase (coreOf s.hart.id).toNat + (low32 area).toNat
  let id := windowIdentity op (s.hart.lane s.hart.csr.rm)
  let s1 := s.writeLoc at_ (List.replicate (32 * count.toNat) (toBytes id w)).flatten
  s1.onHart fun h => { h with window := some ⟨base, count.toNat, op, h.elem, area, 0⟩ }

/-- A window instruction that acts at issue, alone in its convoy: it waits for the convoys in flight, and counts as a
retired convoy (R204, R209). -/
def State.windowNow (s : State) (trap : Option (Cause × Word)) (eff : State → State) : State :=
  if !s.hart.convoys.isEmpty then s
  else if s.hart.elem = .e2m1 then s.convoyStop s .illegal s.hart.pc
  else
    s.goingOn 4
      (match trap with
       | some (c, v) => s.convoyStop s c v
       | none =>
         s.fallTo (s.nextPc 4) fun t => (eff t).onHart fun h =>
           { h with csr := { h.csr with cvret := h.csr.cvret + 1 }, issued := h.issued + 1 })

/-- The requests for the entries of a window that is merged no further: those without an answer are still answered, and
nobody waits for them (R207, R399). -/
def State.dropMerges (s : State) : State :=
  { s with remote := s.remote.filterMap fun r =>
      if !(decide (r.owner = .hart s.hart.id) && decide (64 ≤ r.part)) then some r
      else if r.status = .sent then some { r with owner := .gone } else none }

/-- `vwin` (R205). -/
def execVwin (o a b : BitVec 5) (s : State) : Host.Outcome State Fault Refusal :=
  .next (s.windowNow (s.windowTrap (s.x a) (s.x b) (s.x 28)) fun t =>
    t.dropMerges.openWindow o (s.x a) (s.x b) (s.x 28))

/-- `vwdrop` (R207). -/
def execVwdrop (s : State) : Host.Outcome State Fault Refusal :=
  .next (s.windowNow none fun t => t.dropMerges.onHart fun h => { h with window := none })

end Sys2Proof.Machine
end

