-- ==== Sys2Proof/Machine/Vector.lean ====
section
/-! DEFINITION. Vector.lean: the meaning of each vector instruction: it issues the convoy that it begins (R75 to R153). -/

namespace Sys2Proof.Machine

/-- `vadd` (R120). -/
def execVadd (p : BitVec 1) (d a b : BitVec 5) (g : BitVec 3) (c : BitVec 1) (s : State) : Host.Outcome State Fault Refusal :=
  .next (s.issueConvoy (.vadd p d a b g c) (vaddInfo p d a b g c))

/-- `vsub` (R120). -/
def execVsub (p : BitVec 1) (d a b : BitVec 5) (g : BitVec 3) (c : BitVec 1) (s : State) : Host.Outcome State Fault Refusal :=
  .next (s.issueConvoy (.vsub p d a b g c) (vsubInfo p d a b g c))

/-- `vmul` (R120). -/
def execVmul (p : BitVec 1) (d a b : BitVec 5) (g : BitVec 3) (c : BitVec 1) (s : State) : Host.Outcome State Fault Refusal :=
  .next (s.issueConvoy (.vmul p d a b g c) (vmulInfo p d a b g c))

/-- `vmulh` (R120). -/
def execVmulh (p : BitVec 1) (d a b : BitVec 5) (g : BitVec 3) (c : BitVec 1) (s : State) : Host.Outcome State Fault Refusal :=
  .next (s.issueConvoy (.vmulh p d a b g c) (vmulhInfo p d a b g c))

/-- `vmulhn` (R120). -/
def execVmulhn (p : BitVec 1) (d a b : BitVec 5) (g : BitVec 3) (c : BitVec 1) (s : State) : Host.Outcome State Fault Refusal :=
  .next (s.issueConvoy (.vmulhn p d a b g c) (vmulhnInfo p d a b g c))

/-- `vmin` (R120). -/
def execVmin (p : BitVec 1) (d a b : BitVec 5) (g : BitVec 3) (c : BitVec 1) (s : State) : Host.Outcome State Fault Refusal :=
  .next (s.issueConvoy (.vmin p d a b g c) (vminInfo p d a b g c))

/-- `vminn` (R120). -/
def execVminn (p : BitVec 1) (d a b : BitVec 5) (g : BitVec 3) (c : BitVec 1) (s : State) : Host.Outcome State Fault Refusal :=
  .next (s.issueConvoy (.vminn p d a b g c) (vminnInfo p d a b g c))

/-- `vmax` (R120). -/
def execVmax (p : BitVec 1) (d a b : BitVec 5) (g : BitVec 3) (c : BitVec 1) (s : State) : Host.Outcome State Fault Refusal :=
  .next (s.issueConvoy (.vmax p d a b g c) (vmaxInfo p d a b g c))

/-- `vmaxn` (R120). -/
def execVmaxn (p : BitVec 1) (d a b : BitVec 5) (g : BitVec 3) (c : BitVec 1) (s : State) : Host.Outcome State Fault Refusal :=
  .next (s.issueConvoy (.vmaxn p d a b g c) (vmaxnInfo p d a b g c))

/-- `vand` (R120). -/
def execVand (p : BitVec 1) (d a b : BitVec 5) (g : BitVec 3) (c : BitVec 1) (s : State) : Host.Outcome State Fault Refusal :=
  .next (s.issueConvoy (.vand p d a b g c) (vandInfo p d a b g c))

/-- `vor` (R120). -/
def execVor (p : BitVec 1) (d a b : BitVec 5) (g : BitVec 3) (c : BitVec 1) (s : State) : Host.Outcome State Fault Refusal :=
  .next (s.issueConvoy (.vor p d a b g c) (vorInfo p d a b g c))

/-- `vxor` (R120). -/
def execVxor (p : BitVec 1) (d a b : BitVec 5) (g : BitVec 3) (c : BitVec 1) (s : State) : Host.Outcome State Fault Refusal :=
  .next (s.issueConvoy (.vxor p d a b g c) (vxorInfo p d a b g c))

/-- `vsll` (R120). -/
def execVsll (p : BitVec 1) (d a b : BitVec 5) (g : BitVec 3) (c : BitVec 1) (s : State) : Host.Outcome State Fault Refusal :=
  .next (s.issueConvoy (.vsll p d a b g c) (vsllInfo p d a b g c))

/-- `vsrl` (R120). -/
def execVsrl (p : BitVec 1) (d a b : BitVec 5) (g : BitVec 3) (c : BitVec 1) (s : State) : Host.Outcome State Fault Refusal :=
  .next (s.issueConvoy (.vsrl p d a b g c) (vsrlInfo p d a b g c))

/-- `vsra` (R120). -/
def execVsra (p : BitVec 1) (d a b : BitVec 5) (g : BitVec 3) (c : BitVec 1) (s : State) : Host.Outcome State Fault Refusal :=
  .next (s.issueConvoy (.vsra p d a b g c) (vsraInfo p d a b g c))

/-- `vandn` (R120). -/
def execVandn (p : BitVec 1) (d a b : BitVec 5) (g : BitVec 3) (c : BitVec 1) (s : State) : Host.Outcome State Fault Refusal :=
  .next (s.issueConvoy (.vandn p d a b g c) (vandnInfo p d a b g c))

/-- `vdiv` (R121). -/
def execVdiv (p : BitVec 1) (d a b : BitVec 5) (g : BitVec 3) (c : BitVec 1) (s : State) : Host.Outcome State Fault Refusal :=
  .next (s.issueConvoy (.vdiv p d a b g c) (vdivInfo p d a b g c))

/-- `vdivn` (R121). -/
def execVdivn (p : BitVec 1) (d a b : BitVec 5) (g : BitVec 3) (c : BitVec 1) (s : State) : Host.Outcome State Fault Refusal :=
  .next (s.issueConvoy (.vdivn p d a b g c) (vdivnInfo p d a b g c))

/-- `vrem` (R121). -/
def execVrem (p : BitVec 1) (d a b : BitVec 5) (g : BitVec 3) (c : BitVec 1) (s : State) : Host.Outcome State Fault Refusal :=
  .next (s.issueConvoy (.vrem p d a b g c) (vremInfo p d a b g c))

/-- `vremn` (R121). -/
def execVremn (p : BitVec 1) (d a b : BitVec 5) (g : BitVec 3) (c : BitVec 1) (s : State) : Host.Outcome State Fault Refusal :=
  .next (s.issueConvoy (.vremn p d a b g c) (vremnInfo p d a b g c))

/-- `vsadd` (R121). -/
def execVsadd (p : BitVec 1) (d a b : BitVec 5) (g : BitVec 3) (c : BitVec 1) (s : State) : Host.Outcome State Fault Refusal :=
  .next (s.issueConvoy (.vsadd p d a b g c) (vsaddInfo p d a b g c))

/-- `vsaddn` (R121). -/
def execVsaddn (p : BitVec 1) (d a b : BitVec 5) (g : BitVec 3) (c : BitVec 1) (s : State) : Host.Outcome State Fault Refusal :=
  .next (s.issueConvoy (.vsaddn p d a b g c) (vsaddnInfo p d a b g c))

/-- `vssub` (R121). -/
def execVssub (p : BitVec 1) (d a b : BitVec 5) (g : BitVec 3) (c : BitVec 1) (s : State) : Host.Outcome State Fault Refusal :=
  .next (s.issueConvoy (.vssub p d a b g c) (vssubInfo p d a b g c))

/-- `vssubn` (R121). -/
def execVssubn (p : BitVec 1) (d a b : BitVec 5) (g : BitVec 3) (c : BitVec 1) (s : State) : Host.Outcome State Fault Refusal :=
  .next (s.issueConvoy (.vssubn p d a b g c) (vssubnInfo p d a b g c))

/-- `vfadd` (R122). -/
def execVfadd (p : BitVec 1) (d a b : BitVec 5) (g : BitVec 3) (c : BitVec 1) (s : State) : Host.Outcome State Fault Refusal :=
  .next (s.issueConvoy (.vfadd p d a b g c) (vfaddInfo p d a b g c))

/-- `vfsub` (R122). -/
def execVfsub (p : BitVec 1) (d a b : BitVec 5) (g : BitVec 3) (c : BitVec 1) (s : State) : Host.Outcome State Fault Refusal :=
  .next (s.issueConvoy (.vfsub p d a b g c) (vfsubInfo p d a b g c))

/-- `vfmul` (R122). -/
def execVfmul (p : BitVec 1) (d a b : BitVec 5) (g : BitVec 3) (c : BitVec 1) (s : State) : Host.Outcome State Fault Refusal :=
  .next (s.issueConvoy (.vfmul p d a b g c) (vfmulInfo p d a b g c))

/-- `vfdiv` (R122). -/
def execVfdiv (p : BitVec 1) (d a b : BitVec 5) (g : BitVec 3) (c : BitVec 1) (s : State) : Host.Outcome State Fault Refusal :=
  .next (s.issueConvoy (.vfdiv p d a b g c) (vfdivInfo p d a b g c))

/-- `vfmin` (R122). -/
def execVfmin (p : BitVec 1) (d a b : BitVec 5) (g : BitVec 3) (c : BitVec 1) (s : State) : Host.Outcome State Fault Refusal :=
  .next (s.issueConvoy (.vfmin p d a b g c) (vfminInfo p d a b g c))

/-- `vfmax` (R122). -/
def execVfmax (p : BitVec 1) (d a b : BitVec 5) (g : BitVec 3) (c : BitVec 1) (s : State) : Host.Outcome State Fault Refusal :=
  .next (s.issueConvoy (.vfmax p d a b g c) (vfmaxInfo p d a b g c))

/-- `vfsgnj` (R122). -/
def execVfsgnj (p : BitVec 1) (d a b : BitVec 5) (g : BitVec 3) (c : BitVec 1) (s : State) : Host.Outcome State Fault Refusal :=
  .next (s.issueConvoy (.vfsgnj p d a b g c) (vfsgnjInfo p d a b g c))

/-- `vfsgnjn` (R122). -/
def execVfsgnjn (p : BitVec 1) (d a b : BitVec 5) (g : BitVec 3) (c : BitVec 1) (s : State) : Host.Outcome State Fault Refusal :=
  .next (s.issueConvoy (.vfsgnjn p d a b g c) (vfsgnjnInfo p d a b g c))

/-- `vfma` (R123). -/
def execVfma (p : BitVec 1) (d a b : BitVec 5) (g : BitVec 3) (c : BitVec 1) (s : State) : Host.Outcome State Fault Refusal :=
  .next (s.issueConvoy (.vfma p d a b g c) (vfmaInfo p d a b g c))

/-- `vfms` (R123). -/
def execVfms (p : BitVec 1) (d a b : BitVec 5) (g : BitVec 3) (c : BitVec 1) (s : State) : Host.Outcome State Fault Refusal :=
  .next (s.issueConvoy (.vfms p d a b g c) (vfmsInfo p d a b g c))

/-- `vfnma` (R123). -/
def execVfnma (p : BitVec 1) (d a b : BitVec 5) (g : BitVec 3) (c : BitVec 1) (s : State) : Host.Outcome State Fault Refusal :=
  .next (s.issueConvoy (.vfnma p d a b g c) (vfnmaInfo p d a b g c))

/-- `vfnms` (R123). -/
def execVfnms (p : BitVec 1) (d a b : BitVec 5) (g : BitVec 3) (c : BitVec 1) (s : State) : Host.Outcome State Fault Refusal :=
  .next (s.issueConvoy (.vfnms p d a b g c) (vfnmsInfo p d a b g c))

/-- `vmacc` (R123). -/
def execVmacc (p : BitVec 1) (d a b : BitVec 5) (g : BitVec 3) (c : BitVec 1) (s : State) : Host.Outcome State Fault Refusal :=
  .next (s.issueConvoy (.vmacc p d a b g c) (vmaccInfo p d a b g c))

/-- `vmsac` (R123). -/
def execVmsac (p : BitVec 1) (d a b : BitVec 5) (g : BitVec 3) (c : BitVec 1) (s : State) : Host.Outcome State Fault Refusal :=
  .next (s.issueConvoy (.vmsac p d a b g c) (vmsacInfo p d a b g c))

/-- `vfscale` (R123). -/
def execVfscale (p : BitVec 1) (d a b : BitVec 5) (g : BitVec 3) (c : BitVec 1) (s : State) : Host.Outcome State Fault Refusal :=
  .next (s.issueConvoy (.vfscale p d a b g c) (vfscaleInfo p d a b g c))

/-- `vabs` (R124). -/
def execVabs (p : BitVec 1) (d a : BitVec 5) (g : BitVec 3) (c : BitVec 1) (s : State) : Host.Outcome State Fault Refusal :=
  .next (s.issueConvoy (.vabs p d a g c) (vabsInfo p d a g c))

/-- `vneg` (R124). -/
def execVneg (p : BitVec 1) (d a : BitVec 5) (g : BitVec 3) (c : BitVec 1) (s : State) : Host.Outcome State Fault Refusal :=
  .next (s.issueConvoy (.vneg p d a g c) (vnegInfo p d a g c))

/-- `vnot` (R124). -/
def execVnot (p : BitVec 1) (d a : BitVec 5) (g : BitVec 3) (c : BitVec 1) (s : State) : Host.Outcome State Fault Refusal :=
  .next (s.issueConvoy (.vnot p d a g c) (vnotInfo p d a g c))

/-- `vclz` (R124). -/
def execVclz (p : BitVec 1) (d a : BitVec 5) (g : BitVec 3) (c : BitVec 1) (s : State) : Host.Outcome State Fault Refusal :=
  .next (s.issueConvoy (.vclz p d a g c) (vclzInfo p d a g c))

/-- `vpopc` (R124). -/
def execVpopc (p : BitVec 1) (d a : BitVec 5) (g : BitVec 3) (c : BitVec 1) (s : State) : Host.Outcome State Fault Refusal :=
  .next (s.issueConvoy (.vpopc p d a g c) (vpopcInfo p d a g c))

/-- `vid` (R124). -/
def execVid (p : BitVec 1) (d : BitVec 5) (g : BitVec 3) (c : BitVec 1) (s : State) : Host.Outcome State Fault Refusal :=
  .next (s.issueConvoy (.vid p d g c) (vidInfo p d g c))

/-- `viota` (R124). -/
def execViota (p : BitVec 1) (d m : BitVec 5) (g : BitVec 3) (c : BitVec 1) (s : State) : Host.Outcome State Fault Refusal :=
  .next (s.issueConvoy (.viota p d m g c) (viotaInfo p d m g c))

/-- `vfsqrt` (R125). -/
def execVfsqrt (p : BitVec 1) (d a : BitVec 5) (g : BitVec 3) (c : BitVec 1) (s : State) : Host.Outcome State Fault Refusal :=
  .next (s.issueConvoy (.vfsqrt p d a g c) (vfsqrtInfo p d a g c))

/-- `vfabs` (R125). -/
def execVfabs (p : BitVec 1) (d a : BitVec 5) (g : BitVec 3) (c : BitVec 1) (s : State) : Host.Outcome State Fault Refusal :=
  .next (s.issueConvoy (.vfabs p d a g c) (vfabsInfo p d a g c))

/-- `vfneg` (R125). -/
def execVfneg (p : BitVec 1) (d a : BitVec 5) (g : BitVec 3) (c : BitVec 1) (s : State) : Host.Outcome State Fault Refusal :=
  .next (s.issueConvoy (.vfneg p d a g c) (vfnegInfo p d a g c))

/-- `vfclass` (R125). -/
def execVfclass (p : BitVec 1) (d a : BitVec 5) (g : BitVec 3) (c : BitVec 1) (s : State) : Host.Outcome State Fault Refusal :=
  .next (s.issueConvoy (.vfclass p d a g c) (vfclassInfo p d a g c))

/-- `vfround` (R125). -/
def execVfround (p : BitVec 1) (d a : BitVec 5) (g : BitVec 3) (c : BitVec 1) (s : State) : Host.Outcome State Fault Refusal :=
  .next (s.issueConvoy (.vfround p d a g c) (vfroundInfo p d a g c))

/-- `vfexpo` (R125). -/
def execVfexpo (p : BitVec 1) (d a : BitVec 5) (g : BitVec 3) (c : BitVec 1) (s : State) : Host.Outcome State Fault Refusal :=
  .next (s.issueConvoy (.vfexpo p d a g c) (vfexpoInfo p d a g c))

/-- `vfmant` (R125). -/
def execVfmant (p : BitVec 1) (d a : BitVec 5) (g : BitVec 3) (c : BitVec 1) (s : State) : Host.Outcome State Fault Refusal :=
  .next (s.issueConvoy (.vfmant p d a g c) (vfmantInfo p d a g c))

/-- `vaddX` (R126). -/
def execVaddX (p : BitVec 1) (d a b : BitVec 5) (g : BitVec 3) (c : BitVec 1) (s : State) : Host.Outcome State Fault Refusal :=
  .next (s.issueConvoy (.vaddX p d a b g c) (vaddXInfo p d a b g c))

/-- `vrsubX` (R126). -/
def execVrsubX (p : BitVec 1) (d a b : BitVec 5) (g : BitVec 3) (c : BitVec 1) (s : State) : Host.Outcome State Fault Refusal :=
  .next (s.issueConvoy (.vrsubX p d a b g c) (vrsubXInfo p d a b g c))

/-- `vmulX` (R126). -/
def execVmulX (p : BitVec 1) (d a b : BitVec 5) (g : BitVec 3) (c : BitVec 1) (s : State) : Host.Outcome State Fault Refusal :=
  .next (s.issueConvoy (.vmulX p d a b g c) (vmulXInfo p d a b g c))

/-- `vsllX` (R126). -/
def execVsllX (p : BitVec 1) (d a b : BitVec 5) (g : BitVec 3) (c : BitVec 1) (s : State) : Host.Outcome State Fault Refusal :=
  .next (s.issueConvoy (.vsllX p d a b g c) (vsllXInfo p d a b g c))

/-- `vfaddX` (R126). -/
def execVfaddX (p : BitVec 1) (d a b : BitVec 5) (g : BitVec 3) (c : BitVec 1) (s : State) : Host.Outcome State Fault Refusal :=
  .next (s.issueConvoy (.vfaddX p d a b g c) (vfaddXInfo p d a b g c))

/-- `vfrsubX` (R126). -/
def execVfrsubX (p : BitVec 1) (d a b : BitVec 5) (g : BitVec 3) (c : BitVec 1) (s : State) : Host.Outcome State Fault Refusal :=
  .next (s.issueConvoy (.vfrsubX p d a b g c) (vfrsubXInfo p d a b g c))

/-- `vfmulX` (R126). -/
def execVfmulX (p : BitVec 1) (d a b : BitVec 5) (g : BitVec 3) (c : BitVec 1) (s : State) : Host.Outcome State Fault Refusal :=
  .next (s.issueConvoy (.vfmulX p d a b g c) (vfmulXInfo p d a b g c))

/-- `vfmaX` (R126). -/
def execVfmaX (p : BitVec 1) (d a b : BitVec 5) (g : BitVec 3) (c : BitVec 1) (s : State) : Host.Outcome State Fault Refusal :=
  .next (s.issueConvoy (.vfmaX p d a b g c) (vfmaXInfo p d a b g c))

/-- `vcvt` (R127). -/
def execVcvt (p : BitVec 1) (dst src : BitVec 4) (d a : BitVec 5) (g : BitVec 3) (c : BitVec 1) (s : State) : Host.Outcome State Fault Refusal :=
  .next (s.issueConvoy (.vcvt p dst src d a g c) (vcvtInfo p dst src d a g c))

/-- `vcmpEq` (R130). -/
def execVcmpEq (m a b : BitVec 5) (g : BitVec 3) (c : BitVec 1) (s : State) : Host.Outcome State Fault Refusal :=
  .next (s.issueConvoy (.vcmpEq m a b g c) (vcmpEqInfo m a b g c))

/-- `vcmpNe` (R130). -/
def execVcmpNe (m a b : BitVec 5) (g : BitVec 3) (c : BitVec 1) (s : State) : Host.Outcome State Fault Refusal :=
  .next (s.issueConvoy (.vcmpNe m a b g c) (vcmpNeInfo m a b g c))

/-- `vcmpLt` (R130). -/
def execVcmpLt (m a b : BitVec 5) (g : BitVec 3) (c : BitVec 1) (s : State) : Host.Outcome State Fault Refusal :=
  .next (s.issueConvoy (.vcmpLt m a b g c) (vcmpLtInfo m a b g c))

/-- `vcmpGe` (R130). -/
def execVcmpGe (m a b : BitVec 5) (g : BitVec 3) (c : BitVec 1) (s : State) : Host.Outcome State Fault Refusal :=
  .next (s.issueConvoy (.vcmpGe m a b g c) (vcmpGeInfo m a b g c))

/-- `vcmpLtn` (R130). -/
def execVcmpLtn (m a b : BitVec 5) (g : BitVec 3) (c : BitVec 1) (s : State) : Host.Outcome State Fault Refusal :=
  .next (s.issueConvoy (.vcmpLtn m a b g c) (vcmpLtnInfo m a b g c))

/-- `vcmpGen` (R130). -/
def execVcmpGen (m a b : BitVec 5) (g : BitVec 3) (c : BitVec 1) (s : State) : Host.Outcome State Fault Refusal :=
  .next (s.issueConvoy (.vcmpGen m a b g c) (vcmpGenInfo m a b g c))

/-- `vfcmpEq` (R130). -/
def execVfcmpEq (m a b : BitVec 5) (g : BitVec 3) (c : BitVec 1) (s : State) : Host.Outcome State Fault Refusal :=
  .next (s.issueConvoy (.vfcmpEq m a b g c) (vfcmpEqInfo m a b g c))

/-- `vfcmpNe` (R130). -/
def execVfcmpNe (m a b : BitVec 5) (g : BitVec 3) (c : BitVec 1) (s : State) : Host.Outcome State Fault Refusal :=
  .next (s.issueConvoy (.vfcmpNe m a b g c) (vfcmpNeInfo m a b g c))

/-- `vfcmpLt` (R130). -/
def execVfcmpLt (m a b : BitVec 5) (g : BitVec 3) (c : BitVec 1) (s : State) : Host.Outcome State Fault Refusal :=
  .next (s.issueConvoy (.vfcmpLt m a b g c) (vfcmpLtInfo m a b g c))

/-- `vfcmpLe` (R130). -/
def execVfcmpLe (m a b : BitVec 5) (g : BitVec 3) (c : BitVec 1) (s : State) : Host.Outcome State Fault Refusal :=
  .next (s.issueConvoy (.vfcmpLe m a b g c) (vfcmpLeInfo m a b g c))

/-- `vfcmpGt` (R130). -/
def execVfcmpGt (m a b : BitVec 5) (g : BitVec 3) (c : BitVec 1) (s : State) : Host.Outcome State Fault Refusal :=
  .next (s.issueConvoy (.vfcmpGt m a b g c) (vfcmpGtInfo m a b g c))

/-- `vfcmpGe` (R130). -/
def execVfcmpGe (m a b : BitVec 5) (g : BitVec 3) (c : BitVec 1) (s : State) : Host.Outcome State Fault Refusal :=
  .next (s.issueConvoy (.vfcmpGe m a b g c) (vfcmpGeInfo m a b g c))

/-- `vfcmpUn` (R130). -/
def execVfcmpUn (m a b : BitVec 5) (g : BitVec 3) (c : BitVec 1) (s : State) : Host.Outcome State Fault Refusal :=
  .next (s.issueConvoy (.vfcmpUn m a b g c) (vfcmpUnInfo m a b g c))

/-- `vslideup` (R138). -/
def execVslideup (p : BitVec 1) (d a b : BitVec 5) (g : BitVec 3) (c : BitVec 1) (s : State) : Host.Outcome State Fault Refusal :=
  .next (s.issueConvoy (.vslideup p d a b g c) (vslideupInfo p d a b g c))

/-- `vslidedn` (R138). -/
def execVslidedn (p : BitVec 1) (d a b : BitVec 5) (g : BitVec 3) (c : BitVec 1) (s : State) : Host.Outcome State Fault Refusal :=
  .next (s.issueConvoy (.vslidedn p d a b g c) (vslidednInfo p d a b g c))

/-- `vperm` (R138). -/
def execVperm (p : BitVec 1) (d a b : BitVec 5) (g : BitVec 3) (c : BitVec 1) (s : State) : Host.Outcome State Fault Refusal :=
  .next (s.issueConvoy (.vperm p d a b g c) (vpermInfo p d a b g c))

/-- `vcompress` (R139). -/
def execVcompress (p : BitVec 1) (d a : BitVec 5) (g : BitVec 3) (c : BitVec 1) (s : State) : Host.Outcome State Fault Refusal :=
  .next (s.issueConvoy (.vcompress p d a g c) (vcompressInfo p d a g c))

/-- `vexpand` (R140). -/
def execVexpand (p : BitVec 1) (d a : BitVec 5) (g : BitVec 3) (c : BitVec 1) (s : State) : Host.Outcome State Fault Refusal :=
  .next (s.issueConvoy (.vexpand p d a g c) (vexpandInfo p d a g c))

/-- `vconf` (R138). -/
def execVconf (p : BitVec 1) (d a : BitVec 5) (g : BitVec 3) (c : BitVec 1) (s : State) : Host.Outcome State Fault Refusal :=
  .next (s.issueConvoy (.vconf p d a g c) (vconfInfo p d a g c))

/-- `vsprs` (R141). -/
def execVsprs (p : BitVec 1) (d a : BitVec 5) (g : BitVec 3) (c : BitVec 1) (s : State) : Host.Outcome State Fault Refusal :=
  .next (s.issueConvoy (.vsprs p d a g c) (vsprsInfo p d a g c))

/-- `vredsum` (R142). -/
def execVredsum (p : BitVec 1) (d a : BitVec 5) (g : BitVec 3) (c : BitVec 1) (s : State) : Host.Outcome State Fault Refusal :=
  .next (s.issueConvoy (.vredsum p d a g c) (vredsumInfo p d a g c))

/-- `vredmin` (R142). -/
def execVredmin (p : BitVec 1) (d a : BitVec 5) (g : BitVec 3) (c : BitVec 1) (s : State) : Host.Outcome State Fault Refusal :=
  .next (s.issueConvoy (.vredmin p d a g c) (vredminInfo p d a g c))

/-- `vredminn` (R142). -/
def execVredminn (p : BitVec 1) (d a : BitVec 5) (g : BitVec 3) (c : BitVec 1) (s : State) : Host.Outcome State Fault Refusal :=
  .next (s.issueConvoy (.vredminn p d a g c) (vredminnInfo p d a g c))

/-- `vredmax` (R142). -/
def execVredmax (p : BitVec 1) (d a : BitVec 5) (g : BitVec 3) (c : BitVec 1) (s : State) : Host.Outcome State Fault Refusal :=
  .next (s.issueConvoy (.vredmax p d a g c) (vredmaxInfo p d a g c))

/-- `vredmaxn` (R142). -/
def execVredmaxn (p : BitVec 1) (d a : BitVec 5) (g : BitVec 3) (c : BitVec 1) (s : State) : Host.Outcome State Fault Refusal :=
  .next (s.issueConvoy (.vredmaxn p d a g c) (vredmaxnInfo p d a g c))

/-- `vfredsum` (R142). -/
def execVfredsum (p : BitVec 1) (d a : BitVec 5) (g : BitVec 3) (c : BitVec 1) (s : State) : Host.Outcome State Fault Refusal :=
  .next (s.issueConvoy (.vfredsum p d a g c) (vfredsumInfo p d a g c))

/-- `vfredmin` (R142). -/
def execVfredmin (p : BitVec 1) (d a : BitVec 5) (g : BitVec 3) (c : BitVec 1) (s : State) : Host.Outcome State Fault Refusal :=
  .next (s.issueConvoy (.vfredmin p d a g c) (vfredminInfo p d a g c))

/-- `vfredmax` (R142). -/
def execVfredmax (p : BitVec 1) (d a : BitVec 5) (g : BitVec 3) (c : BitVec 1) (s : State) : Host.Outcome State Fault Refusal :=
  .next (s.issueConvoy (.vfredmax p d a g c) (vfredmaxInfo p d a g c))

/-- `vdup` (R145). -/
def execVdup (p : BitVec 1) (d a : BitVec 5) (g : BitVec 3) (c : BitVec 1) (s : State) : Host.Outcome State Fault Refusal :=
  .next (s.issueConvoy (.vdup p d a g c) (vdupInfo p d a g c))

/-- `vext` (R145). -/
def execVext (p : BitVec 1) (d a b : BitVec 5) (c : BitVec 1) (s : State) : Host.Outcome State Fault Refusal :=
  .next (s.issueConvoy (.vext p d a b c) (vextInfo p d a b c))

/-- `vins` (R145). -/
def execVins (p : BitVec 1) (d a b : BitVec 5) (c : BitVec 1) (s : State) : Host.Outcome State Fault Refusal :=
  .next (s.issueConvoy (.vins p d a b c) (vinsInfo p d a b c))

/-- `vmv` (R145). -/
def execVmv (p : BitVec 1) (d a : BitVec 5) (g : BitVec 3) (c : BitVec 1) (s : State) : Host.Outcome State Fault Refusal :=
  .next (s.issueConvoy (.vmv p d a g c) (vmvInfo p d a g c))

/-- `vmerge` (R145). -/
def execVmerge (p : BitVec 1) (d a b : BitVec 5) (g : BitVec 3) (c : BitVec 1) (s : State) : Host.Outcome State Fault Refusal :=
  .next (s.issueConvoy (.vmerge p d a b g c) (vmergeInfo p d a b g c))

/-- `vmovcb` (R146). -/
def execVmovcb (d a : BitVec 5) (g : BitVec 3) (s : State) : Host.Outcome State Fault Refusal :=
  .next (s.issueConvoy (.vmovcb d a g) (vmovcbInfo d a g))

/-- `vmovbc` (R146). -/
def execVmovbc (d a : BitVec 5) (g : BitVec 3) (s : State) : Host.Outcome State Fault Refusal :=
  .next (s.issueConvoy (.vmovbc d a g) (vmovbcInfo d a g))

/-- `vscanAdd` (R144). -/
def execVscanAdd (p : BitVec 1) (d a : BitVec 5) (g : BitVec 3) (c : BitVec 1) (s : State) : Host.Outcome State Fault Refusal :=
  .next (s.issueConvoy (.vscanAdd p d a g c) (vscanAddInfo p d a g c))

/-- `vscanMax` (R144). -/
def execVscanMax (p : BitVec 1) (d a : BitVec 5) (g : BitVec 3) (c : BitVec 1) (s : State) : Host.Outcome State Fault Refusal :=
  .next (s.issueConvoy (.vscanMax p d a g c) (vscanMaxInfo p d a g c))

/-- `vscanMin` (R144). -/
def execVscanMin (p : BitVec 1) (d a : BitVec 5) (g : BitVec 3) (c : BitVec 1) (s : State) : Host.Outcome State Fault Refusal :=
  .next (s.issueConvoy (.vscanMin p d a g c) (vscanMinInfo p d a g c))

/-- `vfscanAdd` (R144). -/
def execVfscanAdd (p : BitVec 1) (d a : BitVec 5) (g : BitVec 3) (c : BitVec 1) (s : State) : Host.Outcome State Fault Refusal :=
  .next (s.issueConvoy (.vfscanAdd p d a g c) (vfscanAddInfo p d a g c))

/-- `vfscanMax` (R144). -/
def execVfscanMax (p : BitVec 1) (d a : BitVec 5) (g : BitVec 3) (c : BitVec 1) (s : State) : Host.Outcome State Fault Refusal :=
  .next (s.issueConvoy (.vfscanMax p d a g c) (vfscanMaxInfo p d a g c))

/-- `vfscanMin` (R144). -/
def execVfscanMin (p : BitVec 1) (d a : BitVec 5) (g : BitVec 3) (c : BitVec 1) (s : State) : Host.Outcome State Fault Refusal :=
  .next (s.issueConvoy (.vfscanMin p d a g c) (vfscanMinInfo p d a g c))

/-- `vrec` (R144). -/
def execVrec (p : BitVec 1) (d a b : BitVec 5) (g : BitVec 3) (c : BitVec 1) (s : State) : Host.Outcome State Fault Refusal :=
  .next (s.issueConvoy (.vrec p d a b g c) (vrecInfo p d a b g c))

/-- `vld` (R148). -/
def execVld (p : BitVec 1) (d a : BitVec 5) (g : BitVec 3) (c : BitVec 1) (s : State) : Host.Outcome State Fault Refusal :=
  .next (s.issueConvoy (.vld p d a g c) (vldInfo p d a g c))

/-- `vldAcq` (R152). -/
def execVldAcq (d a : BitVec 5) (g : BitVec 3) (c : BitVec 1) (s : State) : Host.Outcome State Fault Refusal :=
  .next (s.issueConvoy (.vldAcq d a g c) (vldAcqInfo d a g c))

/-- `vldV` (R149). -/
def execVldV (d a : BitVec 5) (g : BitVec 3) (c : BitVec 1) (s : State) : Host.Outcome State Fault Refusal :=
  .next (s.issueConvoy (.vldV d a g c) (vldVInfo d a g c))

/-- `vldL` (R149). -/
def execVldL (d a : BitVec 5) (g : BitVec 3) (c : BitVec 1) (s : State) : Host.Outcome State Fault Refusal :=
  .next (s.issueConvoy (.vldL d a g c) (vldLInfo d a g c))

/-- `vldNt` (R149). -/
def execVldNt (d a : BitVec 5) (g : BitVec 3) (c : BitVec 1) (s : State) : Host.Outcome State Fault Refusal :=
  .next (s.issueConvoy (.vldNt d a g c) (vldNtInfo d a g c))

/-- `vlds` (R148). -/
def execVlds (p : BitVec 1) (d a b : BitVec 5) (g : BitVec 3) (c : BitVec 1) (s : State) : Host.Outcome State Fault Refusal :=
  .next (s.issueConvoy (.vlds p d a b g c) (vldsInfo p d a b g c))

/-- `vldsAcq` (R152). -/
def execVldsAcq (d a b : BitVec 5) (g : BitVec 3) (c : BitVec 1) (s : State) : Host.Outcome State Fault Refusal :=
  .next (s.issueConvoy (.vldsAcq d a b g c) (vldsAcqInfo d a b g c))

/-- `vldsV` (R149). -/
def execVldsV (d a b : BitVec 5) (g : BitVec 3) (c : BitVec 1) (s : State) : Host.Outcome State Fault Refusal :=
  .next (s.issueConvoy (.vldsV d a b g c) (vldsVInfo d a b g c))

/-- `vldsL` (R149). -/
def execVldsL (d a b : BitVec 5) (g : BitVec 3) (c : BitVec 1) (s : State) : Host.Outcome State Fault Refusal :=
  .next (s.issueConvoy (.vldsL d a b g c) (vldsLInfo d a b g c))

/-- `vldsNt` (R149). -/
def execVldsNt (d a b : BitVec 5) (g : BitVec 3) (c : BitVec 1) (s : State) : Host.Outcome State Fault Refusal :=
  .next (s.issueConvoy (.vldsNt d a b g c) (vldsNtInfo d a b g c))

/-- `vldx` (R148). -/
def execVldx (d a b : BitVec 5) (g : BitVec 3) (c : BitVec 1) (s : State) : Host.Outcome State Fault Refusal :=
  .next (s.issueConvoy (.vldx d a b g c) (vldxInfo d a b g c))

/-- `vldxB` (R148). -/
def execVldxB (d a b : BitVec 5) (g : BitVec 3) (c : BitVec 1) (s : State) : Host.Outcome State Fault Refusal :=
  .next (s.issueConvoy (.vldxB d a b g c) (vldxBInfo d a b g c))

/-- `vldxBd` (R150). -/
def execVldxBd (d a b : BitVec 5) (g : BitVec 3) (c : BitVec 1) (s : State) : Host.Outcome State Fault Refusal :=
  .next (s.issueConvoy (.vldxBd d a b g c) (vldxBdInfo d a b g c))

/-- `vldxV` (R149). -/
def execVldxV (d a b : BitVec 5) (g : BitVec 3) (c : BitVec 1) (s : State) : Host.Outcome State Fault Refusal :=
  .next (s.issueConvoy (.vldxV d a b g c) (vldxVInfo d a b g c))

/-- `vldxL` (R149). -/
def execVldxL (d a b : BitVec 5) (g : BitVec 3) (c : BitVec 1) (s : State) : Host.Outcome State Fault Refusal :=
  .next (s.issueConvoy (.vldxL d a b g c) (vldxLInfo d a b g c))

/-- `vldxVbd` (R149). -/
def execVldxVbd (d a b : BitVec 5) (g : BitVec 3) (c : BitVec 1) (s : State) : Host.Outcome State Fault Refusal :=
  .next (s.issueConvoy (.vldxVbd d a b g c) (vldxVbdInfo d a b g c))

/-- `vldxLbd` (R149). -/
def execVldxLbd (d a b : BitVec 5) (g : BitVec 3) (c : BitVec 1) (s : State) : Host.Outcome State Fault Refusal :=
  .next (s.issueConvoy (.vldxLbd d a b g c) (vldxLbdInfo d a b g c))

/-- `vst` (R148). -/
def execVst (p : BitVec 1) (d a : BitVec 5) (g : BitVec 3) (c : BitVec 1) (s : State) : Host.Outcome State Fault Refusal :=
  .next (s.issueConvoy (.vst p d a g c) (vstInfo p d a g c))

/-- `vstV` (R149). -/
def execVstV (d a : BitVec 5) (g : BitVec 3) (c : BitVec 1) (s : State) : Host.Outcome State Fault Refusal :=
  .next (s.issueConvoy (.vstV d a g c) (vstVInfo d a g c))

/-- `vstL` (R149). -/
def execVstL (d a : BitVec 5) (g : BitVec 3) (c : BitVec 1) (s : State) : Host.Outcome State Fault Refusal :=
  .next (s.issueConvoy (.vstL d a g c) (vstLInfo d a g c))

/-- `vstNt` (R149). -/
def execVstNt (d a : BitVec 5) (g : BitVec 3) (c : BitVec 1) (s : State) : Host.Outcome State Fault Refusal :=
  .next (s.issueConvoy (.vstNt d a g c) (vstNtInfo d a g c))

/-- `vsts` (R148). -/
def execVsts (p : BitVec 1) (d a b : BitVec 5) (g : BitVec 3) (c : BitVec 1) (s : State) : Host.Outcome State Fault Refusal :=
  .next (s.issueConvoy (.vsts p d a b g c) (vstsInfo p d a b g c))

/-- `vstsV` (R149). -/
def execVstsV (d a b : BitVec 5) (g : BitVec 3) (c : BitVec 1) (s : State) : Host.Outcome State Fault Refusal :=
  .next (s.issueConvoy (.vstsV d a b g c) (vstsVInfo d a b g c))

/-- `vstsL` (R149). -/
def execVstsL (d a b : BitVec 5) (g : BitVec 3) (c : BitVec 1) (s : State) : Host.Outcome State Fault Refusal :=
  .next (s.issueConvoy (.vstsL d a b g c) (vstsLInfo d a b g c))

/-- `vstsNt` (R149). -/
def execVstsNt (d a b : BitVec 5) (g : BitVec 3) (c : BitVec 1) (s : State) : Host.Outcome State Fault Refusal :=
  .next (s.issueConvoy (.vstsNt d a b g c) (vstsNtInfo d a b g c))

/-- `vstx` (R148). -/
def execVstx (d a b : BitVec 5) (g : BitVec 3) (c : BitVec 1) (s : State) : Host.Outcome State Fault Refusal :=
  .next (s.issueConvoy (.vstx d a b g c) (vstxInfo d a b g c))

/-- `vstxB` (R148). -/
def execVstxB (d a b : BitVec 5) (g : BitVec 3) (c : BitVec 1) (s : State) : Host.Outcome State Fault Refusal :=
  .next (s.issueConvoy (.vstxB d a b g c) (vstxBInfo d a b g c))

/-- `vstxBd` (R150). -/
def execVstxBd (d a b : BitVec 5) (g : BitVec 3) (c : BitVec 1) (s : State) : Host.Outcome State Fault Refusal :=
  .next (s.issueConvoy (.vstxBd d a b g c) (vstxBdInfo d a b g c))

/-- `vstxV` (R149). -/
def execVstxV (d a b : BitVec 5) (g : BitVec 3) (c : BitVec 1) (s : State) : Host.Outcome State Fault Refusal :=
  .next (s.issueConvoy (.vstxV d a b g c) (vstxVInfo d a b g c))

/-- `vstxL` (R149). -/
def execVstxL (d a b : BitVec 5) (g : BitVec 3) (c : BitVec 1) (s : State) : Host.Outcome State Fault Refusal :=
  .next (s.issueConvoy (.vstxL d a b g c) (vstxLInfo d a b g c))

/-- `vstxVbd` (R149). -/
def execVstxVbd (d a b : BitVec 5) (g : BitVec 3) (c : BitVec 1) (s : State) : Host.Outcome State Fault Refusal :=
  .next (s.issueConvoy (.vstxVbd d a b g c) (vstxVbdInfo d a b g c))

/-- `vstxLbd` (R149). -/
def execVstxLbd (d a b : BitVec 5) (g : BitVec 3) (c : BitVec 1) (s : State) : Host.Outcome State Fault Refusal :=
  .next (s.issueConvoy (.vstxLbd d a b g c) (vstxLbdInfo d a b g c))

/-- `vwred` (R206). -/
def execVwred (a b : BitVec 5) (g : BitVec 3) (c : BitVec 1) (s : State) : Host.Outcome State Fault Refusal :=
  .next (s.issueConvoy (.vwred a b g c) (vwredInfo a b g c))

/-- `vwmerge` (R207). -/
def execVwmerge (s : State) : Host.Outcome State Fault Refusal :=
  .next (s.issueConvoy .vwmerge vwmergeInfo)

end Sys2Proof.Machine
end

