-- ==== Sys2Proof/Machine/Dispatch.lean ====
section
/-! DEFINITION. Dispatch.lean: the meaning of every operation and event, one arm for each constructor of `Instr`. -/

namespace Sys2Proof.Machine

/-- What an instruction or an event does. -/
def exec (i : Instr) (s : State) : Host.Outcome State Fault Refusal :=
  match i with
  | .vadd p d a b g c => Sys2Proof.Machine.execVadd p d a b g c s
  | .vsub p d a b g c => Sys2Proof.Machine.execVsub p d a b g c s
  | .vmul p d a b g c => Sys2Proof.Machine.execVmul p d a b g c s
  | .vmulh p d a b g c => Sys2Proof.Machine.execVmulh p d a b g c s
  | .vmulhn p d a b g c => Sys2Proof.Machine.execVmulhn p d a b g c s
  | .vmin p d a b g c => Sys2Proof.Machine.execVmin p d a b g c s
  | .vminn p d a b g c => Sys2Proof.Machine.execVminn p d a b g c s
  | .vmax p d a b g c => Sys2Proof.Machine.execVmax p d a b g c s
  | .vmaxn p d a b g c => Sys2Proof.Machine.execVmaxn p d a b g c s
  | .vand p d a b g c => Sys2Proof.Machine.execVand p d a b g c s
  | .vor p d a b g c => Sys2Proof.Machine.execVor p d a b g c s
  | .vxor p d a b g c => Sys2Proof.Machine.execVxor p d a b g c s
  | .vsll p d a b g c => Sys2Proof.Machine.execVsll p d a b g c s
  | .vsrl p d a b g c => Sys2Proof.Machine.execVsrl p d a b g c s
  | .vsra p d a b g c => Sys2Proof.Machine.execVsra p d a b g c s
  | .vandn p d a b g c => Sys2Proof.Machine.execVandn p d a b g c s
  | .vdiv p d a b g c => Sys2Proof.Machine.execVdiv p d a b g c s
  | .vdivn p d a b g c => Sys2Proof.Machine.execVdivn p d a b g c s
  | .vrem p d a b g c => Sys2Proof.Machine.execVrem p d a b g c s
  | .vremn p d a b g c => Sys2Proof.Machine.execVremn p d a b g c s
  | .vsadd p d a b g c => Sys2Proof.Machine.execVsadd p d a b g c s
  | .vsaddn p d a b g c => Sys2Proof.Machine.execVsaddn p d a b g c s
  | .vssub p d a b g c => Sys2Proof.Machine.execVssub p d a b g c s
  | .vssubn p d a b g c => Sys2Proof.Machine.execVssubn p d a b g c s
  | .vfadd p d a b g c => Sys2Proof.Machine.execVfadd p d a b g c s
  | .vfsub p d a b g c => Sys2Proof.Machine.execVfsub p d a b g c s
  | .vfmul p d a b g c => Sys2Proof.Machine.execVfmul p d a b g c s
  | .vfdiv p d a b g c => Sys2Proof.Machine.execVfdiv p d a b g c s
  | .vfmin p d a b g c => Sys2Proof.Machine.execVfmin p d a b g c s
  | .vfmax p d a b g c => Sys2Proof.Machine.execVfmax p d a b g c s
  | .vfsgnj p d a b g c => Sys2Proof.Machine.execVfsgnj p d a b g c s
  | .vfsgnjn p d a b g c => Sys2Proof.Machine.execVfsgnjn p d a b g c s
  | .vfma p d a b g c => Sys2Proof.Machine.execVfma p d a b g c s
  | .vfms p d a b g c => Sys2Proof.Machine.execVfms p d a b g c s
  | .vfnma p d a b g c => Sys2Proof.Machine.execVfnma p d a b g c s
  | .vfnms p d a b g c => Sys2Proof.Machine.execVfnms p d a b g c s
  | .vmacc p d a b g c => Sys2Proof.Machine.execVmacc p d a b g c s
  | .vmsac p d a b g c => Sys2Proof.Machine.execVmsac p d a b g c s
  | .vfscale p d a b g c => Sys2Proof.Machine.execVfscale p d a b g c s
  | .vabs p d a g c => Sys2Proof.Machine.execVabs p d a g c s
  | .vneg p d a g c => Sys2Proof.Machine.execVneg p d a g c s
  | .vnot p d a g c => Sys2Proof.Machine.execVnot p d a g c s
  | .vclz p d a g c => Sys2Proof.Machine.execVclz p d a g c s
  | .vpopc p d a g c => Sys2Proof.Machine.execVpopc p d a g c s
  | .vid p d g c => Sys2Proof.Machine.execVid p d g c s
  | .viota p d m g c => Sys2Proof.Machine.execViota p d m g c s
  | .vfsqrt p d a g c => Sys2Proof.Machine.execVfsqrt p d a g c s
  | .vfabs p d a g c => Sys2Proof.Machine.execVfabs p d a g c s
  | .vfneg p d a g c => Sys2Proof.Machine.execVfneg p d a g c s
  | .vfclass p d a g c => Sys2Proof.Machine.execVfclass p d a g c s
  | .vfround p d a g c => Sys2Proof.Machine.execVfround p d a g c s
  | .vfexpo p d a g c => Sys2Proof.Machine.execVfexpo p d a g c s
  | .vfmant p d a g c => Sys2Proof.Machine.execVfmant p d a g c s
  | .vaddX p d a b g c => Sys2Proof.Machine.execVaddX p d a b g c s
  | .vrsubX p d a b g c => Sys2Proof.Machine.execVrsubX p d a b g c s
  | .vmulX p d a b g c => Sys2Proof.Machine.execVmulX p d a b g c s
  | .vsllX p d a b g c => Sys2Proof.Machine.execVsllX p d a b g c s
  | .vfaddX p d a b g c => Sys2Proof.Machine.execVfaddX p d a b g c s
  | .vfrsubX p d a b g c => Sys2Proof.Machine.execVfrsubX p d a b g c s
  | .vfmulX p d a b g c => Sys2Proof.Machine.execVfmulX p d a b g c s
  | .vfmaX p d a b g c => Sys2Proof.Machine.execVfmaX p d a b g c s
  | .vcvt p dst src d a g c => Sys2Proof.Machine.execVcvt p dst src d a g c s
  | .vcmpEq m a b g c => Sys2Proof.Machine.execVcmpEq m a b g c s
  | .vcmpNe m a b g c => Sys2Proof.Machine.execVcmpNe m a b g c s
  | .vcmpLt m a b g c => Sys2Proof.Machine.execVcmpLt m a b g c s
  | .vcmpGe m a b g c => Sys2Proof.Machine.execVcmpGe m a b g c s
  | .vcmpLtn m a b g c => Sys2Proof.Machine.execVcmpLtn m a b g c s
  | .vcmpGen m a b g c => Sys2Proof.Machine.execVcmpGen m a b g c s
  | .vfcmpEq m a b g c => Sys2Proof.Machine.execVfcmpEq m a b g c s
  | .vfcmpNe m a b g c => Sys2Proof.Machine.execVfcmpNe m a b g c s
  | .vfcmpLt m a b g c => Sys2Proof.Machine.execVfcmpLt m a b g c s
  | .vfcmpLe m a b g c => Sys2Proof.Machine.execVfcmpLe m a b g c s
  | .vfcmpGt m a b g c => Sys2Proof.Machine.execVfcmpGt m a b g c s
  | .vfcmpGe m a b g c => Sys2Proof.Machine.execVfcmpGe m a b g c s
  | .vfcmpUn m a b g c => Sys2Proof.Machine.execVfcmpUn m a b g c s
  | .vslideup p d a b g c => Sys2Proof.Machine.execVslideup p d a b g c s
  | .vslidedn p d a b g c => Sys2Proof.Machine.execVslidedn p d a b g c s
  | .vperm p d a b g c => Sys2Proof.Machine.execVperm p d a b g c s
  | .vcompress p d a g c => Sys2Proof.Machine.execVcompress p d a g c s
  | .vexpand p d a g c => Sys2Proof.Machine.execVexpand p d a g c s
  | .vconf p d a g c => Sys2Proof.Machine.execVconf p d a g c s
  | .vsprs p d a g c => Sys2Proof.Machine.execVsprs p d a g c s
  | .vredsum p d a g c => Sys2Proof.Machine.execVredsum p d a g c s
  | .vredmin p d a g c => Sys2Proof.Machine.execVredmin p d a g c s
  | .vredminn p d a g c => Sys2Proof.Machine.execVredminn p d a g c s
  | .vredmax p d a g c => Sys2Proof.Machine.execVredmax p d a g c s
  | .vredmaxn p d a g c => Sys2Proof.Machine.execVredmaxn p d a g c s
  | .vfredsum p d a g c => Sys2Proof.Machine.execVfredsum p d a g c s
  | .vfredmin p d a g c => Sys2Proof.Machine.execVfredmin p d a g c s
  | .vfredmax p d a g c => Sys2Proof.Machine.execVfredmax p d a g c s
  | .vdup p d a g c => Sys2Proof.Machine.execVdup p d a g c s
  | .vext p d a b c => Sys2Proof.Machine.execVext p d a b c s
  | .vins p d a b c => Sys2Proof.Machine.execVins p d a b c s
  | .vmv p d a g c => Sys2Proof.Machine.execVmv p d a g c s
  | .vmerge p d a b g c => Sys2Proof.Machine.execVmerge p d a b g c s
  | .vmovcb d a g => Sys2Proof.Machine.execVmovcb d a g s
  | .vmovbc d a g => Sys2Proof.Machine.execVmovbc d a g s
  | .vscanAdd p d a g c => Sys2Proof.Machine.execVscanAdd p d a g c s
  | .vscanMax p d a g c => Sys2Proof.Machine.execVscanMax p d a g c s
  | .vscanMin p d a g c => Sys2Proof.Machine.execVscanMin p d a g c s
  | .vfscanAdd p d a g c => Sys2Proof.Machine.execVfscanAdd p d a g c s
  | .vfscanMax p d a g c => Sys2Proof.Machine.execVfscanMax p d a g c s
  | .vfscanMin p d a g c => Sys2Proof.Machine.execVfscanMin p d a g c s
  | .vrec p d a b g c => Sys2Proof.Machine.execVrec p d a b g c s
  | .vld p d a g c => Sys2Proof.Machine.execVld p d a g c s
  | .vldAcq d a g c => Sys2Proof.Machine.execVldAcq d a g c s
  | .vldV d a g c => Sys2Proof.Machine.execVldV d a g c s
  | .vldL d a g c => Sys2Proof.Machine.execVldL d a g c s
  | .vldNt d a g c => Sys2Proof.Machine.execVldNt d a g c s
  | .vlds p d a b g c => Sys2Proof.Machine.execVlds p d a b g c s
  | .vldsAcq d a b g c => Sys2Proof.Machine.execVldsAcq d a b g c s
  | .vldsV d a b g c => Sys2Proof.Machine.execVldsV d a b g c s
  | .vldsL d a b g c => Sys2Proof.Machine.execVldsL d a b g c s
  | .vldsNt d a b g c => Sys2Proof.Machine.execVldsNt d a b g c s
  | .vldx d a b g c => Sys2Proof.Machine.execVldx d a b g c s
  | .vldxB d a b g c => Sys2Proof.Machine.execVldxB d a b g c s
  | .vldxBd d a b g c => Sys2Proof.Machine.execVldxBd d a b g c s
  | .vldxV d a b g c => Sys2Proof.Machine.execVldxV d a b g c s
  | .vldxL d a b g c => Sys2Proof.Machine.execVldxL d a b g c s
  | .vldxVbd d a b g c => Sys2Proof.Machine.execVldxVbd d a b g c s
  | .vldxLbd d a b g c => Sys2Proof.Machine.execVldxLbd d a b g c s
  | .vst p d a g c => Sys2Proof.Machine.execVst p d a g c s
  | .vstV d a g c => Sys2Proof.Machine.execVstV d a g c s
  | .vstL d a g c => Sys2Proof.Machine.execVstL d a g c s
  | .vstNt d a g c => Sys2Proof.Machine.execVstNt d a g c s
  | .vsts p d a b g c => Sys2Proof.Machine.execVsts p d a b g c s
  | .vstsV d a b g c => Sys2Proof.Machine.execVstsV d a b g c s
  | .vstsL d a b g c => Sys2Proof.Machine.execVstsL d a b g c s
  | .vstsNt d a b g c => Sys2Proof.Machine.execVstsNt d a b g c s
  | .vstx d a b g c => Sys2Proof.Machine.execVstx d a b g c s
  | .vstxB d a b g c => Sys2Proof.Machine.execVstxB d a b g c s
  | .vstxBd d a b g c => Sys2Proof.Machine.execVstxBd d a b g c s
  | .vstxV d a b g c => Sys2Proof.Machine.execVstxV d a b g c s
  | .vstxL d a b g c => Sys2Proof.Machine.execVstxL d a b g c s
  | .vstxVbd d a b g c => Sys2Proof.Machine.execVstxVbd d a b g c s
  | .vstxLbd d a b g c => Sys2Proof.Machine.execVstxLbd d a b g c s
  | .vwin o a b => Sys2Proof.Machine.execVwin o a b s
  | .vwred a b g c => Sys2Proof.Machine.execVwred a b g c s
  | .vwmerge => Sys2Proof.Machine.execVwmerge s
  | .vwdrop => Sys2Proof.Machine.execVwdrop s
  | .ldB d a imm => Sys2Proof.Machine.execLdB d a imm s
  | .ldBn d a imm => Sys2Proof.Machine.execLdBn d a imm s
  | .ldH d a imm => Sys2Proof.Machine.execLdH d a imm s
  | .ldHn d a imm => Sys2Proof.Machine.execLdHn d a imm s
  | .ldW d a imm => Sys2Proof.Machine.execLdW d a imm s
  | .ldWn d a imm => Sys2Proof.Machine.execLdWn d a imm s
  | .ldD d a imm => Sys2Proof.Machine.execLdD d a imm s
  | .ldAcqW d a sc => Sys2Proof.Machine.execLdAcqW d a sc s
  | .ldAcqD d a sc => Sys2Proof.Machine.execLdAcqD d a sc s
  | .stRelW b a sc => Sys2Proof.Machine.execStRelW b a sc s
  | .stRelD b a sc => Sys2Proof.Machine.execStRelD b a sc s
  | .amoadd w d b a sc => Sys2Proof.Machine.execAmoadd w d b a sc s
  | .amoand w d b a sc => Sys2Proof.Machine.execAmoand w d b a sc s
  | .amoor w d b a sc => Sys2Proof.Machine.execAmoor w d b a sc s
  | .amoxor w d b a sc => Sys2Proof.Machine.execAmoxor w d b a sc s
  | .amomin w d b a sc => Sys2Proof.Machine.execAmomin w d b a sc s
  | .amomax w d b a sc => Sys2Proof.Machine.execAmomax w d b a sc s
  | .amoswap w d b a sc => Sys2Proof.Machine.execAmoswap w d b a sc s
  | .amocas w d b a sc => Sys2Proof.Machine.execAmocas w d b a sc s
  | .amoaddAcqrel w d b a sc => Sys2Proof.Machine.execAmoaddAcqrel w d b a sc s
  | .amoandAcqrel w d b a sc => Sys2Proof.Machine.execAmoandAcqrel w d b a sc s
  | .amoorAcqrel w d b a sc => Sys2Proof.Machine.execAmoorAcqrel w d b a sc s
  | .amoxorAcqrel w d b a sc => Sys2Proof.Machine.execAmoxorAcqrel w d b a sc s
  | .amominAcqrel w d b a sc => Sys2Proof.Machine.execAmominAcqrel w d b a sc s
  | .amomaxAcqrel w d b a sc => Sys2Proof.Machine.execAmomaxAcqrel w d b a sc s
  | .amoswapAcqrel w d b a sc => Sys2Proof.Machine.execAmoswapAcqrel w d b a sc s
  | .amocasAcqrel w d b a sc => Sys2Proof.Machine.execAmocasAcqrel w d b a sc s
  | .fenceSv sc => Sys2Proof.Machine.execFenceSv sc s
  | .fenceVs sc => Sys2Proof.Machine.execFenceVs sc s
  | .fenceVv sc => Sys2Proof.Machine.execFenceVv sc s
  | .fenceAll sc => Sys2Proof.Machine.execFenceAll sc s
  | .fenceStk n => Sys2Proof.Machine.execFenceStk n s
  | .icsync sc => Sys2Proof.Machine.execIcsync sc s
  | .csrr d csr => Sys2Proof.Machine.execCsrr d csr s
  | .csrw d csr a => Sys2Proof.Machine.execCsrw d csr a s
  | .csrs d csr a => Sys2Proof.Machine.execCsrs d csr a s
  | .csrc d csr a => Sys2Proof.Machine.execCsrc d csr a s
  | .vcfg d cnt sew alt => Sys2Proof.Machine.execVcfg d cnt sew alt s
  | .copyL d a b => Sys2Proof.Machine.execCopyL d a b s
  | .copy2d d a b => Sys2Proof.Machine.execCopy2d d a b s
  | .copyG d a b => Sys2Proof.Machine.execCopyG d a b s
  | .copyS d a b => Sys2Proof.Machine.execCopyS d a b s
  | .embw d a b => Sys2Proof.Machine.execEmbw d a b s
  | .stprobe m v a b => Sys2Proof.Machine.execStprobe m v a b s
  | .stfill v a b g => Sys2Proof.Machine.execStfill v a b g s
  | .stctlStream a b => Sys2Proof.Machine.execStctlStream a b s
  | .stctlAsid a b => Sys2Proof.Machine.execStctlAsid a b s
  | .stctlAll a b => Sys2Proof.Machine.execStctlAll a b s
  | .cname n a b => Sys2Proof.Machine.execCname n a b s
  | .collAllReduce n a b => Sys2Proof.Machine.execCollAllReduce n a b s
  | .collAllGather n a b => Sys2Proof.Machine.execCollAllGather n a b s
  | .collReduceScatter n a b => Sys2Proof.Machine.execCollReduceScatter n a b s
  | .pmig a b => Sys2Proof.Machine.execPmig a b s
  | .awadd a b sc => Sys2Proof.Machine.execAwadd a b sc s
  | .carrive a b => Sys2Proof.Machine.execCarrive a b s
  | .launch d a => Sys2Proof.Machine.execLaunch d a s
  | .farmnext d => Sys2Proof.Machine.execFarmnext d s
  | .retire => Sys2Proof.Machine.execRetire s
  | .bsync => Sys2Proof.Machine.execBsync s
  | .cLdW d a imm => Sys2Proof.Machine.execCLdW d a imm s
  | .cLdD d imm => Sys2Proof.Machine.execCLdD d imm s
  | .mshape xs => Sys2Proof.Machine.execMshape xs s
  | .mzero t => Sys2Proof.Machine.execMzero t s
  | .mma t va vb fa fb neg sat ovw => Sys2Proof.Machine.execMma t va vb fa fb neg sat ovw s
  | .mmas t va vb vx fa fb neg sat ovw => Sys2Proof.Machine.execMmas t va vb vx fa fb neg sat ovw s
  | .mmag t va vb xs fa fb neg sat ovw => Sys2Proof.Machine.execMmag t va vb xs fa fb neg sat ovw s
  | .mmax t va vb vx fa fb neg sat ovw => Sys2Proof.Machine.execMmax t va vb vx fa fb neg sat ovw s
  | .mtv va t xs => Sys2Proof.Machine.execMtv va t xs s
  | .mvt t va xs => Sys2Proof.Machine.execMvt t va xs s
  | .msync => Sys2Proof.Machine.execMsync s
  | .add d a b => Sys2Proof.Machine.execAdd d a b s
  | .sub d a b => Sys2Proof.Machine.execSub d a b s
  | .and d a b => Sys2Proof.Machine.execAnd d a b s
  | .or d a b => Sys2Proof.Machine.execOr d a b s
  | .xor d a b => Sys2Proof.Machine.execXor d a b s
  | .andn d a b => Sys2Proof.Machine.execAndn d a b s
  | .sll d a b => Sys2Proof.Machine.execSll d a b s
  | .srl d a b => Sys2Proof.Machine.execSrl d a b s
  | .sra d a b => Sys2Proof.Machine.execSra d a b s
  | .slt d a b => Sys2Proof.Machine.execSlt d a b s
  | .sltn d a b => Sys2Proof.Machine.execSltn d a b s
  | .min d a b => Sys2Proof.Machine.execMin d a b s
  | .minn d a b => Sys2Proof.Machine.execMinn d a b s
  | .max d a b => Sys2Proof.Machine.execMax d a b s
  | .maxn d a b => Sys2Proof.Machine.execMaxn d a b s
  | .mul d a b => Sys2Proof.Machine.execMul d a b s
  | .mulh d a b => Sys2Proof.Machine.execMulh d a b s
  | .mulhn d a b => Sys2Proof.Machine.execMulhn d a b s
  | .div d a b => Sys2Proof.Machine.execDiv d a b s
  | .divn d a b => Sys2Proof.Machine.execDivn d a b s
  | .rem d a b => Sys2Proof.Machine.execRem d a b s
  | .remn d a b => Sys2Proof.Machine.execRemn d a b s
  | .clz d a => Sys2Proof.Machine.execClz d a s
  | .ctz d a => Sys2Proof.Machine.execCtz d a s
  | .popc d a => Sys2Proof.Machine.execPopc d a s
  | .sextB d a => Sys2Proof.Machine.execSextB d a s
  | .sextH d a => Sys2Proof.Machine.execSextH d a s
  | .sextW d a => Sys2Proof.Machine.execSextW d a s
  | .zextW d a => Sys2Proof.Machine.execZextW d a s
  | .addw d a b => Sys2Proof.Machine.execAddw d a b s
  | .subw d a b => Sys2Proof.Machine.execSubw d a b s
  | .sllw d a b => Sys2Proof.Machine.execSllw d a b s
  | .srlw d a b => Sys2Proof.Machine.execSrlw d a b s
  | .sraw d a b => Sys2Proof.Machine.execSraw d a b s
  | .mulw d a b => Sys2Proof.Machine.execMulw d a b s
  | .divw d a b => Sys2Proof.Machine.execDivw d a b s
  | .divnw d a b => Sys2Proof.Machine.execDivnw d a b s
  | .remw d a b => Sys2Proof.Machine.execRemw d a b s
  | .remnw d a b => Sys2Proof.Machine.execRemnw d a b s
  | .addi d a imm => Sys2Proof.Machine.execAddi d a imm s
  | .andi d a imm => Sys2Proof.Machine.execAndi d a imm s
  | .ori d a imm => Sys2Proof.Machine.execOri d a imm s
  | .xori d a imm => Sys2Proof.Machine.execXori d a imm s
  | .slti d a imm => Sys2Proof.Machine.execSlti d a imm s
  | .sltni d a imm => Sys2Proof.Machine.execSltni d a imm s
  | .slli d a imm => Sys2Proof.Machine.execSlli d a imm s
  | .srli d a imm => Sys2Proof.Machine.execSrli d a imm s
  | .srai d a imm => Sys2Proof.Machine.execSrai d a imm s
  | .lhi d imm => Sys2Proof.Machine.execLhi d imm s
  | .pcadd d imm => Sys2Proof.Machine.execPcadd d imm s
  | .stB b a imm => Sys2Proof.Machine.execStB b a imm s
  | .stH b a imm => Sys2Proof.Machine.execStH b a imm s
  | .stW b a imm => Sys2Proof.Machine.execStW b a imm s
  | .stD b a imm => Sys2Proof.Machine.execStD b a imm s
  | .beq a b imm => Sys2Proof.Machine.execBeq a b imm s
  | .bne a b imm => Sys2Proof.Machine.execBne a b imm s
  | .blt a b imm => Sys2Proof.Machine.execBlt a b imm s
  | .bge a b imm => Sys2Proof.Machine.execBge a b imm s
  | .bltn a b imm => Sys2Proof.Machine.execBltn a b imm s
  | .bgen a b imm => Sys2Proof.Machine.execBgen a b imm s
  | .bbs a b imm => Sys2Proof.Machine.execBbs a b imm s
  | .bbc a b imm => Sys2Proof.Machine.execBbc a b imm s
  | .jal d imm => Sys2Proof.Machine.execJal d imm s
  | .jalr d a imm => Sys2Proof.Machine.execJalr d a imm s
  | .loop k a imm => Sys2Proof.Machine.execLoop k a imm s
  | .ecall => Sys2Proof.Machine.execEcall s
  | .ebreak => Sys2Proof.Machine.execEbreak s
  | .eret => Sys2Proof.Machine.execEret s
  | .uret => Sys2Proof.Machine.execUret s
  | .pause => Sys2Proof.Machine.execPause s
  | .fadd t d a b => Sys2Proof.Machine.execFadd t d a b s
  | .fsub t d a b => Sys2Proof.Machine.execFsub t d a b s
  | .fmul t d a b => Sys2Proof.Machine.execFmul t d a b s
  | .fdiv t d a b => Sys2Proof.Machine.execFdiv t d a b s
  | .fsqrt t d a => Sys2Proof.Machine.execFsqrt t d a s
  | .fmin t d a b => Sys2Proof.Machine.execFmin t d a b s
  | .fmax t d a b => Sys2Proof.Machine.execFmax t d a b s
  | .fsgnj t d a b => Sys2Proof.Machine.execFsgnj t d a b s
  | .fsgnjn t d a b => Sys2Proof.Machine.execFsgnjn t d a b s
  | .fsgnjx t d a b => Sys2Proof.Machine.execFsgnjx t d a b s
  | .feq t d a b => Sys2Proof.Machine.execFeq t d a b s
  | .flt t d a b => Sys2Proof.Machine.execFlt t d a b s
  | .fle t d a b => Sys2Proof.Machine.execFle t d a b s
  | .fclass t d a => Sys2Proof.Machine.execFclass t d a s
  | .fcvtI t u d a => Sys2Proof.Machine.execFcvtI t u d a s
  | .fcvtF t u d a => Sys2Proof.Machine.execFcvtF t u d a s
  | .fcvtFf t g d a => Sys2Proof.Machine.execFcvtFf t g d a s
  | .fma f d a b e => Sys2Proof.Machine.execFma f d a b e s
  | .fms f d a b e => Sys2Proof.Machine.execFms f d a b e s
  | .fnma f d a b e => Sys2Proof.Machine.execFnma f d a b e s
  | .fnms f d a b e => Sys2Proof.Machine.execFnms f d a b e s
  | .whileLt m a b => Sys2Proof.Machine.execWhileLt m a b s
  | .whileLe m a b => Sys2Proof.Machine.execWhileLe m a b s
  | .whileLtn m a b => Sys2Proof.Machine.execWhileLtn m a b s
  | .whileLen m a b => Sys2Proof.Machine.execWhileLen m a b s
  | .mand d a b g => Sys2Proof.Machine.execMand d a b g s
  | .mor d a b g => Sys2Proof.Machine.execMor d a b g s
  | .mxor d a b g => Sys2Proof.Machine.execMxor d a b g s
  | .mandn d a b g => Sys2Proof.Machine.execMandn d a b g s
  | .mnot d a g => Sys2Proof.Machine.execMnot d a g s
  | .mmov d a g => Sys2Proof.Machine.execMmov d a g s
  | .mff d a g => Sys2Proof.Machine.execMff d a g s
  | .mset d g => Sys2Proof.Machine.execMset d g s
  | .mclr d g => Sys2Proof.Machine.execMclr d g s
  | .mbset d a => Sys2Proof.Machine.execMbset d a s
  | .mbclr d a => Sys2Proof.Machine.execMbclr d a s
  | .mpop d a g => Sys2Proof.Machine.execMpop d a g s
  | .mfirst d a g => Sys2Proof.Machine.execMfirst d a g s
  | .mbrk d a g => Sys2Proof.Machine.execMbrk d a g s
  | .awarm a b => Sys2Proof.Machine.execAwarm a b s
  | .waitGen a b sc => Sys2Proof.Machine.execWaitGen a b sc s
  | .waitNe a b sc => Sys2Proof.Machine.execWaitNe a b sc s
  | .cwait a b => Sys2Proof.Machine.execCwait a b s
  | .gbar => Sys2Proof.Machine.execGbar s
  | .cAddi d imm => Sys2Proof.Machine.execCAddi d imm s
  | .cLi d imm => Sys2Proof.Machine.execCLi d imm s
  | .cLhi d imm => Sys2Proof.Machine.execCLhi d imm s
  | .cSlli d imm => Sys2Proof.Machine.execCSlli d imm s
  | .cSrli d imm => Sys2Proof.Machine.execCSrli d imm s
  | .cSrai d imm => Sys2Proof.Machine.execCSrai d imm s
  | .cAdd d a => Sys2Proof.Machine.execCAdd d a s
  | .cSub d a => Sys2Proof.Machine.execCSub d a s
  | .cMv d a => Sys2Proof.Machine.execCMv d a s
  | .cAnd d a => Sys2Proof.Machine.execCAnd d a s
  | .cOr d a => Sys2Proof.Machine.execCOr d a s
  | .cXor d a => Sys2Proof.Machine.execCXor d a s
  | .cStW b a imm => Sys2Proof.Machine.execCStW b a imm s
  | .cStD b imm => Sys2Proof.Machine.execCStD b imm s
  | .cJ imm => Sys2Proof.Machine.execCJ imm s
  | .cBeqz a imm => Sys2Proof.Machine.execCBeqz a imm s
  | .cBnez a imm => Sys2Proof.Machine.execCBnez a imm s
  | .cJr a => Sys2Proof.Machine.execCJr a s
  | .cJalr a => Sys2Proof.Machine.execCJalr a s
  | .cRet => Sys2Proof.Machine.execCRet s
  | .cNop => Sys2Proof.Machine.execCNop s
  | .cEbreak => Sys2Proof.Machine.execCEbreak s
  | .convoyGroupCommit h => Sys2Proof.Machine.execConvoyGroupCommit h s
  | .brimGroupCommit h => Sys2Proof.Machine.execBrimGroupCommit h s
  | .brimConvoyComplete h => Sys2Proof.Machine.execBrimConvoyComplete h s
  | .brimSyncSend h => Sys2Proof.Machine.execBrimSyncSend h s
  | .bsyncDone h => Sys2Proof.Machine.execBsyncDone h s
  | .vcfgReshape h => Sys2Proof.Machine.execVcfgReshape h s
  | .fenceDone h => Sys2Proof.Machine.execFenceDone h s
  | .icsyncDone h => Sys2Proof.Machine.execIcsyncDone h s
  | .csrWriteApply h => Sys2Proof.Machine.execCsrWriteApply h s
  | .releaseStorePerform h => Sys2Proof.Machine.execReleaseStorePerform h s
  | .awaddContribution h => Sys2Proof.Machine.execAwaddContribution h s
  | .nearMemoryAtomic h => Sys2Proof.Machine.execNearMemoryAtomic h s
  | .loadDataReturn h => Sys2Proof.Machine.execLoadDataReturn h s
  | .waitWake h => Sys2Proof.Machine.execWaitWake h s
  | .gbarRelease f => Sys2Proof.Machine.execGbarRelease f s
  | .carriveArrival h => Sys2Proof.Machine.execCarriveArrival h s
  | .pauseExpiry h => Sys2Proof.Machine.execPauseExpiry h s
  | .issueFairness h => Sys2Proof.Machine.execIssueFairness h s
  | .clockGate h => Sys2Proof.Machine.execClockGate h s
  | .powerGate core => Sys2Proof.Machine.execPowerGate core s
  | .residencyReport h => Sys2Proof.Machine.execResidencyReport h s
  | .matrixPost h => Sys2Proof.Machine.execMatrixPost h s
  | .matrixEntryComplete h => Sys2Proof.Machine.execMatrixEntryComplete h s
  | .mtvPost h => Sys2Proof.Machine.execMtvPost h s
  | .mshapeApply h => Sys2Proof.Machine.execMshapeApply h s
  | .msyncDone h => Sys2Proof.Machine.execMsyncDone h s
  | .translationWalkDone h => Sys2Proof.Machine.execTranslationWalkDone h s
  | .walkerFailure w => Sys2Proof.Machine.execWalkerFailure w s
  | .xinvComplete h => Sys2Proof.Machine.execXinvComplete h s
  | .launchHandoff h => Sys2Proof.Machine.execLaunchHandoff h s
  | .launchAccept => Sys2Proof.Machine.execLaunchAccept s
  | .dependenceReached f => Sys2Proof.Machine.execDependenceReached f s
  | .farmServe => Sys2Proof.Machine.execFarmServe s
  | .sliceSpillDone => Sys2Proof.Machine.execSliceSpillDone s
  | .hartStart => Sys2Proof.Machine.execHartStart s
  | .stripHandout h => Sys2Proof.Machine.execStripHandout h s
  | .retireLeave h => Sys2Proof.Machine.execRetireLeave h s
  | .farmComplete f => Sys2Proof.Machine.execFarmComplete f s
  | .farmFail f cause => Sys2Proof.Machine.execFarmFail f cause s
  | .starvationPromotion f => Sys2Proof.Machine.execStarvationPromotion f s
  | .engineEnqueue h => Sys2Proof.Machine.execEngineEnqueue h s
  | .copyChunkDelivery id chunk => Sys2Proof.Machine.execCopyChunkDelivery id chunk s
  | .embeddingRecordDone id rec => Sys2Proof.Machine.execEmbeddingRecordDone id rec s
  | .probeDecision id => Sys2Proof.Machine.execProbeDecision id s
  | .tileSettled id tile => Sys2Proof.Machine.execTileSettled id tile s
  | .fillEntry id => Sys2Proof.Machine.execFillEntry id s
  | .stctlDone h => Sys2Proof.Machine.execStctlDone h s
  | .collComplete id => Sys2Proof.Machine.execCollComplete id s
  | .collTimeout id => Sys2Proof.Machine.execCollTimeout id s
  | .pmigCopyDone h => Sys2Proof.Machine.execPmigCopyDone h s
  | .dramRatioChange st => Sys2Proof.Machine.execDramRatioChange st s
  | .crownLatencyTarget st oneLeft => Sys2Proof.Machine.execCrownLatencyTarget st oneLeft s
  | .ualinkRequestIn r => Sys2Proof.Machine.execUalinkRequestIn r s
  | .ualinkResponse id failed data => Sys2Proof.Machine.execUalinkResponse id failed data s
  | .ualinkRequestTimeout id => Sys2Proof.Machine.execUalinkRequestTimeout id s
  | .ualinkLaneFailure port lane => Sys2Proof.Machine.execUalinkLaneFailure port lane s
  | .spinelLinkFailed port => Sys2Proof.Machine.execSpinelLinkFailed port s
  | .clusterLinkFailed cl a b => Sys2Proof.Machine.execClusterLinkFailed cl a b s
  | .berylPortDown => Sys2Proof.Machine.execBerylPortDown s
  | .berylPortUp => Sys2Proof.Machine.execBerylPortUp s
  | .mwrite tag pa len data => Sys2Proof.Machine.execMwrite tag pa len data s
  | .mread tag pa len => Sys2Proof.Machine.execMread tag pa len s
  | .launchMessage tag record ptbase tvec tdeleg mode => Sys2Proof.Machine.execLaunchMessage tag record ptbase tvec tdeleg mode s
  | .signal tag pa bytes => Sys2Proof.Machine.execSignal tag pa bytes s
  | .replay tag n => Sys2Proof.Machine.execReplay tag n s
  | .attest tag nonce => Sys2Proof.Machine.execAttest tag nonce s
  | .attestReply => Sys2Proof.Machine.execAttestReply s
  | .malformedMessage tag => Sys2Proof.Machine.execMalformedMessage tag s
  | .mgmtIdentify tag => Sys2Proof.Machine.execMgmtIdentify tag s
  | .mgmtReset tag => Sys2Proof.Machine.execMgmtReset tag s
  | .mgmtCsrWrite tag num v => Sys2Proof.Machine.execMgmtCsrWrite tag num v s
  | .mgmtCsrRead tag num => Sys2Proof.Machine.execMgmtCsrRead tag num s
  | .mgmtExtend tag digest => Sys2Proof.Machine.execMgmtExtend tag digest s
  | .mgmtFirmwareWrite tag off len data => Sys2Proof.Machine.execMgmtFirmwareWrite tag off len data s
  | .mgmtSetIdentity tag pkg coord => Sys2Proof.Machine.execMgmtSetIdentity tag pkg coord s
  | .mgmtEndFarm tag farmid => Sys2Proof.Machine.execMgmtEndFarm tag farmid s
  | .powerGood => Sys2Proof.Machine.execPowerGood s
  | .berylTrained => Sys2Proof.Machine.execBerylTrained s
  | .firmwareVerify => Sys2Proof.Machine.execFirmwareVerify s
  | .trainingDone => Sys2Proof.Machine.execTrainingDone s
  | .thermalTrip temp => Sys2Proof.Machine.execThermalTrip temp s
  | .throttle crown brim => Sys2Proof.Machine.execThrottle crown brim s
  | .fpctlWrite h => Sys2Proof.Machine.execFpctlWrite h s
  | .ffxWrite h => Sys2Proof.Machine.execFfxWrite h s
  | .bsumWrite h => Sys2Proof.Machine.execBsumWrite h s
  | .ptbaseWrite h => Sys2Proof.Machine.execPtbaseWrite h s
  | .xinvPage h => Sys2Proof.Machine.execXinvPage h s
  | .xinvAll h => Sys2Proof.Machine.execXinvAll h s
  | .fbtailWrite h => Sys2Proof.Machine.execFbtailWrite h s
  | .fbbaseWrite h => Sys2Proof.Machine.execFbbaseWrite h s
  | .fbsizeWrite h => Sys2Proof.Machine.execFbsizeWrite h s
  | .spbaseWrite h => Sys2Proof.Machine.execSpbaseWrite h s
  | .spsizeWrite h => Sys2Proof.Machine.execSpsizeWrite h s
  | .bsaveWrite h => Sys2Proof.Machine.execBsaveWrite h s
  | .pwrcapWrite h => Sys2Proof.Machine.execPwrcapWrite h s
  | .stabaseWrite h => Sys2Proof.Machine.execStabaseWrite h s
  | .stalimitWrite h => Sys2Proof.Machine.execStalimitWrite h s
  | .acdataRead h => Sys2Proof.Machine.execAcdataRead h s
  | .stcdataRead h => Sys2Proof.Machine.execStcdataRead h s
  | .wstatRead h => Sys2Proof.Machine.execWstatRead h s
  | .cerrRead h => Sys2Proof.Machine.execCerrRead h s
  | .fcstatRead h => Sys2Proof.Machine.execFcstatRead h s
  | .brstatRead h => Sys2Proof.Machine.execBrstatRead h s
  | .pwrstatRead h => Sys2Proof.Machine.execPwrstatRead h s
  | .registerWrite h => Sys2Proof.Machine.execRegisterWrite h s
  | .powerRemoved => Sys2Proof.Machine.execPowerRemoved s
  | .notAnInstruction => Sys2Proof.Machine.execNotAnInstruction s
  | .instructionFetchFault => Sys2Proof.Machine.execInstructionFetchFault s
  | .spinelRequestIn r => Sys2Proof.Machine.execSpinelRequestIn r s
  | .crownToStackLinkFailed st => Sys2Proof.Machine.execCrownToStackLinkFailed st s
  | .failedRead h loc => Sys2Proof.Machine.execFailedRead h loc s
  | .storePerformed h n => Sys2Proof.Machine.execStorePerformed h n s

end Sys2Proof.Machine
end

