-- ==== Sys2Proof/Machine/Schedule.lean ====
section
/-! DEFINITION. Schedule.lean: which agent moves next (R185, R186; assumption logs 3, 4 and 6), how a hart issues its next
item, and the laying of a word where the next fetch finds it. -/

namespace Sys2Proof.Machine

/-! ## Issue of one item (R41, R185) -/

/-- The current hart fetches, decodes and executes its next item. -/
noncomputable def State.issue (s : State) : Host.Outcome State Fault Refusal :=
  match s.fetchInstr s.hart.pc with
  | (.error _, _) => exec .instructionFetchFault s
  | (.ok d, t) =>
    match decode d with
    | .ok (i, _) => exec i t
    | .error _ => exec .notAnInstruction s

/-- The current hart's next item is not held back by a wait, a sleep, a stall or a stop (R185). -/
def State.mayIssue (s : State) : Bool := s.awake && s.hart.wait.isNone && s.hart.sleep.isNone

/-- An item has done something: the hart is not as it was, stalls, or has asked for something. -/
def State.moved (s t : State) : Bool :=
  decide (t.hart ≠ s.hart) || decide (t.stalls.length ≠ s.stalls.length) || decide (t.remote.length ≠ s.remote.length)

/-- The interlocks of the current hart's next item hold it back (R80, R81): with convoys in flight, the item would leave
the hart as it is. -/
noncomputable def State.heldBack (s : State) : Bool :=
  if s.hart.still && !s.lag then false
  else
    match s.issue with
    | .next t => !s.moved t
    | _ => false

/-- The current hart is ready but for `pause` (R185). -/
noncomputable def State.readyHere (s : State) : Bool := s.mayIssue && !s.heldBack

/-- A hart is ready. -/
noncomputable def State.ready (s : State) (h : HartId) : Bool := (s.focus h).readyHere

/-! ## The choice of a core (R116, R186) -/

/-- The effective priority of a hart's farm. -/
def State.priorityOf (s : State) (h : Hart) : Nat :=
  match s.farmOf h with
  | some f => f.priority.toNat
  | none => 0

/-- The hart that issued least recently; the lowest HARTID among equals. -/
def oldest : List Hart → Option Hart
  | [] => none
  | h :: hs =>
    match oldest hs with
    | some k => if h.lastIssue ≤ k.lastIssue then some h else some k
    | none => some h

/-- The choice among the ready harts of one core. -/
def State.choose (s : State) (hs : List Hart) : Option Hart :=
  match oldest (hs.filter fun h => decide (6 ≤ h.passed)) with
  | some h => some h
  | none =>
    let top := (hs.map s.priorityOf).foldl max 0
    oldest (hs.filter fun h => decide (s.priorityOf h = top))

/-- The ready harts of a core that compete: paused ones only when no other is ready. -/
def contenders (hs : List Hart) : List Hart :=
  let up := hs.filter fun h => !h.paused
  if up.isEmpty then hs else up

/-- The core that issues next is the one whose ready hart issued least recently. -/
def State.choice (s : State) (ready : List Hart) : Option Hart :=
  match oldest ready with
  | some h => s.choose (contenders (ready.filter fun k => decide (coreOf k.id = coreOf h.id)))
  | none => none

/-- The other harts of a core in whose issuing cycle `h` is chosen: one that was ready is passed over once more, and the
run of one that was not, a paused one among them, begins afresh (R116, R186). -/
def State.passOver (s : State) (h : HartId) (ready : List Hart) : State :=
  s.harts.foldl (fun s k =>
    if k.id = h ∨ coreOf k.id ≠ coreOf h then s
    else
      let n := if (ready.any fun r => decide (r.id = k.id)) && !k.paused then k.passed + 1 else 0
      withHart k.id (fun t => t.onHart fun g => { g with passed := n }) s) s

/-- A hart chosen: it is the current one, with its place in the order of issue. -/
def State.chosen (s : State) (h : HartId) : State :=
  let t := s.focus h
  { t with
    hart := { t.hart with paused := false, passed := 0, lastIssue := t.issueClock + 1 }
    issueClock := t.issueClock + 1 }

/-! ## The device's own work -/

/-- The first state that a list of things offers. -/
def firstOf {α : Type} (f : α → Option State) : List α → Option State
  | [] => none
  | a :: as =>
    match f a with
    | some t => some t
    | none => firstOf f as

/-- Something done as a hart, where it does something. -/
def State.asHart (s : State) (f : State → Option State) (h : Hart) : Option State :=
  (f (s.focus h.id)).map fun t => t.focus s.hart.id

/-- The waiting instruction of the current hart performed, its walk ended with it, where it can be. -/
def State.waitStep (s : State) : Option State :=
  (s.walkEnds.finishWait fun _ => true).map fun t => t.onHart fun h => { h with walked := false }

/-- The current hart's matrix queue and convoys take a step. -/
def State.convoyStep (s : State) : Option State :=
  if !s.convoysRun || (s.hart.still && s.hart.queue.isEmpty) then none
  else
    let r := s.advance
    if r.2 = .nothing ∧ r.1.remote.length = s.remote.length ∧ r.1.stalls.length = s.stalls.length then none else some r.1

/-- The current hart wakes, where its watched word has been written (R199). -/
def State.wakeStep (s : State) : Option State := if s.sleeps && s.wakeDue then some s.wokenUp else none

/-- The oldest posted store of the current hart performed, where no load before it is in flight (R163). -/
def State.storeStep (s : State) : Option State :=
  match s.hart.stores with
  | p :: _ => if s.hart.holdsStore p then none else some (s.performStore 0)
  | [] => none

/-- The oldest waiting brim store of the current hart performed. -/
def State.lateralStep (s : State) : Option State := if s.hart.laterals.isEmpty then none else some (s.performLateral 0)

/-- A migration of the current hart ends. -/
def State.migrationStep (s : State) : Option State :=
  if s.migrations.any fun m => decide (m.hart = s.hart.id) && !s.migrationBusy m then some s.pmigDone else none

/-- Engine work has come further: the work, a stall, a request or a message is not as it was. -/
def State.workMoved (s t : State) : Bool :=
  decide (t.works ≠ s.works) || decide (t.stalls.length ≠ s.stalls.length) || decide (t.remote.length ≠ s.remote.length)

/-- A state of engine work, where it has come further. -/
def State.ifMoved (s t : State) : Option State := if s.workMoved t then some t else none

/-- A piece of engine work takes a step: a chunk, a record, a tile, or a collective. -/
def State.workStep (s : State) (w : Work) : Option State :=
  match w.job with
  | .copy c => firstOf (fun k => s.ifMoved (s.deliverChunk w.id k)) (List.range c.chunks.length)
  | .walk v => firstOf (fun k => s.ifMoved (s.walkStep w.id k)) (List.range (max 1 v.count))
  | .act a =>
    match firstOf (fun t => s.ifMoved (s.settleHit w.id t.1.index)) a.settling with
    | some t => some t
    | none => s.ifMoved (s.actStep w.id a.fill (if a.fill then State.fillTile else State.decideTile))
  | .coll _ => s.ifMoved (s.collStep w.id)

/-- A farm takes a step of its own: its dependences are reached, it fails, its barrier releases, or it completes. -/
def State.farmStep (s : State) (f : Farm) : Option State :=
  match s.failureOf f with
  | some (c, _) => some (s.failFarm f.entry c)
  | none =>
    if f.phase = .waiting then
      let t := s.dependence f.entry
      if (t.farmAt f.entry).map Farm.phase ≠ some .waiting ∨ t.stalls.length ≠ s.stalls.length ∨
        (t.farmAt f.entry).any (fun g => g.failing.isSome) then some t else none
    else if f.arrived ≠ 0 ∧ f.unretired ≤ f.arrived then some (s.gbarRelease f.entry)
    else if s.finished f then
      let t := s.completeFarm f.entry
      if (t.farmAt f.entry).isNone ∨ t.stalls.length ≠ s.stalls.length ∨ (t.farmAt f.entry).any (fun g => g.failing.isSome) then
        some t
      else none
    else none

/-- The controller takes a step (R279, R285, R287, R295). -/
def State.controllerStep (s : State) : Option State :=
  if !s.ctl.launches.isEmpty then some s.judgeNext
  else
    match firstOf s.farmStep s.ctl.farms with
    | some t => some t
    | none =>
      match s.spillNext with
      | some t => some t
      | none => if !s.ctl.starting.isEmpty then some s.startNext else s.serve

/-- The platform takes a step of its own: training, or a signing (R384, R388). -/
noncomputable def State.platformStep (s : State) : Option State :=
  match s.plat.boot with
  | .training => some s.berylTrained
  | _ => if s.plat.attests.isEmpty then none else some s.replyAttest

/-- A message of the control node performed. -/
def State.message (s : State) (m : NodeMessage) : Host.Outcome State Fault Refusal :=
  match m with
  | .mwrite tag pa len d => execMwrite tag pa len d s
  | .mread tag pa len => execMread tag pa len s
  | .launch tag r p v d m => execLaunchMessage tag r p v d m s
  | .signal tag pa n => execSignal tag pa n s
  | .replay tag n => execReplay tag n s
  | .attest tag d => execAttest tag d s
  | .identify tag => execMgmtIdentify tag s
  | .reset tag => execMgmtReset tag s
  | .csrWrite tag n v => execMgmtCsrWrite tag n v s
  | .csrRead tag n => execMgmtCsrRead tag n s
  | .extend tag d => execMgmtExtend tag d s
  | .firmwareWrite tag o n d => execMgmtFirmwareWrite tag o n d s
  | .setIdentity tag p c => execMgmtSetIdentity tag p c s
  | .endFarm tag f => execMgmtEndFarm tag f s
  | .malformed tag => execMalformedMessage tag s
  | .noOperation tag v => .next (s.refuseOperation tag v)

/-- The first message that waits performed, where it can be and the port is up (R394; assumption log 114). -/
def State.inboxStep (s : State) : Option State :=
  match s.inbox with
  | m :: rest =>
    if s.plat.deaf then none
    else
      match ({ s with inbox := [] } : State).message m with
      | .next t => if t.inbox.isEmpty then some { t with inbox := rest } else none
      | _ => none
  | [] => none

/-- The first thing of the device's own that can be done: an instruction that waits and can end, a migration, a convoy or
matrix entry, a sleeper that can wake, a posted or lateral store, engine work, the controller, a message that waited, the
platform. -/
noncomputable def State.deviceStep (s : State) : Option State :=
  firstOf (s.asHart State.waitStep) s.harts <|>
  firstOf (s.asHart State.migrationStep) s.harts <|>
  firstOf (s.asHart State.convoyStep) s.harts <|>
  firstOf (s.asHart State.wakeStep) s.harts <|>
  firstOf (s.asHart State.storeStep) s.harts <|>
  firstOf (s.asHart State.lateralStep) s.harts <|>
  firstOf s.workStep s.works <|>
  s.controllerStep <|>
  s.inboxStep <|>
  s.platformStep

/-! ## What moves -/

/-- A hart issues, as R186 chooses; `none` when none is ready. -/
noncomputable def State.hartStep (s : State) : Option (Host.Outcome State Fault Refusal) :=
  let ready := s.harts.filter fun h => s.ready h.id
  (s.choice ready).map fun h => ((s.passOver h.id ready).chosen h.id).issue

/-- The harts go before the device's own work: waits are left open, and the turn of that work, which comes with every
64th issue, has not come. -/
def State.hartsFirst (s : State) : Bool := s.lag && decide (s.issueClock % 64 ≠ 0)

/-- Nothing is left to the agenda: the device's own work and the harts go on. With waits left open the harts go first;
else every piece of work ends before the next item issues. -/
noncomputable def State.runOn (s : State) : Host.Outcome State Fault Refusal :=
  if s.hartsFirst then
    match s.hartStep with
    | some o => o
    | none => .next (s.deviceStep.getD s)
  else
    match s.deviceStep with
    | some t => .next t
    | none => s.hartStep.getD (.next s)

/-- An event of the table, as against an operation of a hart. -/
def isEvent (i : Instr) : Bool :=
  match i with
  | .notAnInstruction => false
  | .instructionFetchFault => false
  | i => (encode i).isNone

/-- One move of the agenda. -/
noncomputable def State.move (s : State) (m : Move) : Host.Outcome State Fault Refusal :=
  match m with
  | .event i => if isEvent i then exec i s else .next s
  | .turn h => if (s.focus h).mayIssue then (s.chosen h).issue else .next s
  | .lag on => .next { s with lag := on }
  | .upset u => .next (s.upset u)
  | .dropTlb c => .next (s.onCore c fun k => { k with tlb := k.tlb.dropLast })
  | .dropStackTlb t => .next (s.onStack t fun k => { k with tlb := k.tlb.dropLast })
  | .dropBlock c => .next (s.onCore c fun k => { k with icache := k.icache.dropLast })
  | .sensors => .next s.readSensors
  | .lateral h n => .next (withHart h (State.performLateral n) s)
  | .podIcsync => .next s.podIcsync
  | .torusLink t d => .next (s.failTorusLink t d)
  | .firmwareRead pa n => .next (s.firmwareRead pa n)
  | .regionRead off n => .next (s.regionRead off n)
  | .regionWrite off d => .next (s.regionWrite off d)
  | .firmwareCsrRead num => .next (s.firmwareCsrRead num)
  | .firmwareCsrWrite num v => .next (s.firmwareCsrWrite num v)
  | .arrive bytes =>
    match decodeMessage bytes with
    | .row i => exec i s
    | .noOperation tag v => .next (s.refuseOperation tag v)

/-! ## A word laid where the next fetch finds it (assumption log 5) -/

/-- The address of the next fetch: the pc, where an instruction of 8 bytes can be fetched from one page there; else 0. -/
def fetchSpot (pc : Word) : Word :=
  if canonical pc && !inLocal pc && decide (pc.toNat % 4096 ≤ 4088) && decide (pc.toNat % 2 = 0) then pc else 0

/-- A pointer to the table at a frame. -/
def pointerTo (frame : Nat) : Word := BitVec.ofNat 64 (frame * 65536 + 1)

/-- A leaf with R, X and A at a frame. -/
def leafTo (frame : Nat) : Word := BitVec.ofNat 64 (frame * 65536 + 0x4B)

/-- The entries of the five tables, at frames 1 to 5, that map the page of an address to frame 6 (R260 to R262). -/
def tablesFor (s : State) (va : Word) : State :=
  let put (s : State) (lvl frame : Nat) (e : Word) : State := s.writeLoc (frame * 4096 + 8 * vaIndex va lvl) (bytesOf e 8)
  put (put (put (put (put s 4 1 (pointerTo 2)) 3 2 (pointerTo 3)) 2 3 (pointerTo 4)) 1 4 (pointerTo 5)) 0 5 (leafTo 6)

/-- A live supervisor hart whose next item is not held back. -/
def Hart.runnable (h : Hart) : Hart :=
  { h with
    live := true
    halted := false
    mode := .supervisor
    pc := fetchSpot h.pc
    convoys := []
    brimConvoys := []
    queue := []
    wait := none
    sleep := none
    stores := []
    laterals := []
    csr := { h.csr with ptbase := 0x1000 } }

/-- The state in which the current hart's next fetch finds the bytes. -/
def State.layBytes (s : State) (d : List Byte) : State :=
  let h := s.hart.runnable
  let t := { s with
    hart := h
    cores := s.cores.set (coreOf h.id).toNat { s.core with tlb := [], icache := [] } (coreOf h.id).isLt
    walkers := State.reset.walkers
    badUnits := []
    poisoned := []
    stalls := []
    migrations := []
    ctl := { s.ctl with spilling := [] }
    pkg := { s.pkg with pkgid := 0 }
    agenda := .turn h.id :: s.agenda }
  (tablesFor t h.pc).writeLoc (0x6000 + h.pc.toNat % 4096) d

end Sys2Proof.Machine
end

