-- ==== Sys2Proof/Machine/Step.lean ====
section
/-! DEFINITION. Step.lean: one step of the package: the next move of the agenda, or, when it is empty, what goes on by
itself. -/

namespace Sys2Proof.Machine

/-- One step. -/
noncomputable def step (s : State) : Host.Outcome State Fault Refusal :=
  match s.agenda with
  | m :: rest => ({ s with agenda := rest }).move m
  | [] => s.runOn

/-- The instruction whose bits are `w`, the bits above `nbits` zero, stored where the current hart fetches next, the hart's
turn the next move. -/
def State.withFetchWord (s : State) (nbits w : Nat) : State := s.layBytes (toBytes (w % 2 ^ nbits) 8)

end Sys2Proof.Machine
end

