-- ==== Sys2Proof/Safety.lean ====
section
/-! DEFINITION. Safety.lean: the terms in which claims are made: when nothing hinders an instruction, how it ends, and what
it leaves unchanged. -/

namespace Sys2Proof.Machine

/-! ## When an instruction of the scalar stream goes on at once -/

/-- No convoy in flight writes one of the x registers `rs` (R81), and falling through `len` bytes on is no back edge, or one
to a convoy start whose check meets nothing else (R75, R104). -/
def State.unhindered (s : State) (len : Nat) (rs : List (BitVec 5)) : Prop :=
  s.hart.busyX rs = false ∧ s.edge s.hart.pc (s.nextPc len) = .start

/-! ## How it ends -/

/-- After `s`, an instruction of `len` bytes has fallen through: the pc and the loop counts are those of R104, and the next
convoy issues from group 0. -/
def State.fellThrough (s t : State) (len : Nat) : Prop :=
  t.hart.pc = (s.hart.csr.fallThrough s.hart.pc (s.nextPc len)).1 ∧
    t.hart.csr.lcnt = (s.hart.csr.fallThrough s.hart.pc (s.nextPc len)).2.lcnt ∧ t.hart.reissue = 0

/-- After `s`, the hart has gone to `target`: the levels whose body the transfer leaves have no count (R105). -/
def State.wentTo (s t : State) (target : Word) : Prop :=
  t.hart.pc = target ∧ t.hart.csr.lcnt = (s.hart.csr.cancel s.hart.pc target).lcnt ∧ t.hart.reissue = 0

/-! ## What it leaves unchanged -/

/-- Every byte of local memory reads as before. -/
def State.sameMemory (s t : State) : Prop := ∀ l : Nat, readCell t.mem l = readCell s.mem l

/-- Every byte of local memory outside the `n` bytes from `l` on reads as before. -/
def State.sameMemoryBut (s t : State) (l n : Nat) : Prop :=
  ∀ k : Nat, ¬(l ≤ k ∧ k < l + n) → readCell t.mem k = readCell s.mem k

/-- Only the x registers, the pc, the loop counts and the reissue group of the current hart may differ. -/
def State.onlyXs (s t : State) : Prop :=
  t = { s with hart := { s.hart with
        x := t.hart.x, pc := t.hart.pc, reissue := t.hart.reissue, csr := { s.hart.csr with lcnt := t.hart.csr.lcnt } } } ∧
    s.sameMemory t

/-- The x register `d` holds `v`, unless it is x0, and every other x register is as it was. -/
def State.wroteX (s t : State) (d : BitVec 5) (v : Word) : Prop :=
  t.x d = (if d = 0 then 0 else v) ∧ ∀ r, r ≠ d → t.x r = s.x r

/-! ## Executing an instruction, and an event that finishes one -/

/-- The instruction, executed from `s`, ends in `t`. -/
def Executes (i : Instr) (s t : State) : Prop := exec i s = .next t

/-- The event, performed in `s`, leaves `t` with the hart of the event the current one. -/
def Happens (e : Instr) (s t : State) : Prop := exec e s = .next (t.focus s.hart.id)

/-- The hart `h` waits for the instruction `i` and can go on; `z` is `s` with that hart the current one and its wait
ended. -/
def State.waitsFor (s : State) (h : HartId) (i : Instr) (z : State) : Prop :=
  (s.focus h).hart.wait = some i ∧ (s.focus h).awake = true ∧
    z = { s.focus h with hart := { (s.focus h).hart with wait := none } }

/-- A way in which the instruction `i` is performed from `s`: it is executed with every wait ending at once, or the event `e`
ends the wait of a hart that waits for it and may go on, with waits left open or not. `ends` holds of what it leaves. -/
def State.performs (s : State) (i : Instr) (e : HartId → Instr) (ends : State → Prop) : Prop :=
  (s.lag = false ∧ ends = Executes i s) ∨
    ∃ (before : State) (h : HartId), before.waitsFor h i s ∧ ends = Happens (e h) before

/-- It completes: the x register `d` receives `v`, the hart goes on after `len` bytes, and nothing else changes. -/
def GivesBy (ends : State → Prop) (s : State) (len : Nat) (d : BitVec 5) (v : Word) : Prop :=
  ∃ t, ends t ∧ s.wroteX t d v ∧ s.fellThrough t len ∧ s.onlyXs t

/-- The instruction completes: the x register `d` receives `v`, the hart goes on after its `len` bytes, and nothing else
changes. -/
def Gives (i : Instr) (s : State) (len : Nat) (d : BitVec 5) (v : Word) : Prop := GivesBy (Executes i s) s len d v

/-! ## Memory accesses of the scalar stream -/

/-- The checks of R99 let an access of `n` bytes at `va` go on to the location `l` of this package: `p` is what the access
reaches, and `s1` the state after the translation. -/
def State.reachesHere (s : State) (waits atomic : Bool) (need : Need) (va : Word) (n : Nat) (p : Piece) (l : Nat)
    (s1 : State) : Prop :=
  s.scalarReach waits need atomic va n n = (.ok p, s1) ∧ p.place = .here l

/-- A location outside the page-table entry whose A and D bits the access may set (R99, R264). -/
def Piece.outsideEntry (p : Piece) (k : Nat) : Prop := ∀ e, p.page = some e → ¬(e.ea ≤ k ∧ k < e.ea + 8)

/-- Of the hart only the x registers, the pc, the loop counts, the reissue group, the posted stores and the mark of an ended
walk may differ, and the other harts are as they were. -/
def State.hartFrame (s t : State) : Prop :=
  t.hart = { s.hart with
      x := t.hart.x, pc := t.hart.pc, reissue := t.hart.reissue, csr := { s.hart.csr with lcnt := t.hart.csr.lcnt }
      walked := t.hart.walked, stores := t.hart.stores } ∧ t.parked = s.parked

/-- The bytes of the low `n` bytes of a word, the lowest first (R3). -/
def lowBytes (w : Word) (n : Nat) : List Byte := (List.range n).map fun j => w.extractLsb' (8 * j) 8

/-- The value of bytes, the lowest first (R3). -/
def valueOf : List Byte → Nat
  | [] => 0
  | b :: bs => b.toNat + 256 * valueOf bs

/-- The sign extension of the low `n` bits of a value. -/
def signExtended (n v : Nat) : Word := (BitVec.ofNat n v).signExtend 64

/-- A load completes: `d` receives the value `conv` makes of the `n` bytes at the location of `va`, as the hart's own posted
stores would leave them (R100); memory is as it was. -/
def LoadsBy (ends : State → Prop) (s : State) (len : Nat) (d : BitVec 5) (va : Word) (n : Nat) (conv : Nat → Word) : Prop :=
  ∀ (p : Piece) (l : Nat) (s1 : State), Memory.wf s.mem = true →
    s.reachesHere true false ⟨true, false, false⟩ va n p l s1 →
    let u := s1.markPiece .scalar false p
    u.performStores.readFails l n = false →
    ∃ t, ends t ∧ s.wroteX t d (conv (valueOf (u.performStores.readLoc l n))) ∧ s.fellThrough t len ∧ s.hartFrame t ∧
      u.sameMemory t ∧ (s.hart.stores = [] → ∀ k : Nat, p.outsideEntry k → readCell t.mem k = readCell s.mem k)

/-- A store completes: the `n` bytes at the location of `va` are the low bytes of `w`, and every other byte of memory is as
it was. -/
def StoresBy (ends : State → Prop) (s : State) (waits : Bool) (len : Nat) (va : Word) (n : Nat) (w : Word) : Prop :=
  ∀ (p : Piece) (l : Nat) (s1 : State), Memory.wf s.mem = true →
    s.reachesHere waits false ⟨false, true, false⟩ va n p l s1 →
    ∃ t, ends t ∧ t.readLoc l n = lowBytes w n ∧ s.fellThrough t len ∧ (∀ r, t.x r = s.x r) ∧
      s.hartFrame t ∧ ∀ k : Nat, ¬(l ≤ k ∧ k < l + n) → p.outsideEntry k → readCell t.mem k = readCell s.mem k

/-- A store executed. -/
def Stores (i : Instr) (s : State) (waits : Bool) (len : Nat) (va : Word) (n : Nat) (w : Word) : Prop :=
  StoresBy (Executes i s) s waits len va n w

/-- A store is posted: it joins the hart's posted stores after the others, and no byte of memory outside the page-table
entry that it marks changes yet (R100). -/
def Posted (i : Instr) (s : State) (len : Nat) (va : Word) (n : Nat) (w : Word) : Prop :=
  ∀ (p : Piece) (l : Nat) (s1 : State), Memory.wf s.mem = true → s.hart.stores = [] →
    s.reachesHere false false ⟨false, true, false⟩ va n p l s1 →
    ∃ t, exec i s = .next t ∧ t.hart.stores = [⟨l, lowBytes w n, s.hart.issued, va, false⟩] ∧ s.fellThrough t len ∧
      (∀ r, t.x r = s.x r) ∧ s.hartFrame t ∧ ∀ k : Nat, p.outsideEntry k → readCell t.mem k = readCell s.mem k

/-- An atomic completes: `d` receives the old value of the `n` bytes at `va`, and they hold `new` of it, or what they held
where `new` is none; every other byte of memory is as it was. -/
def AtomicallyBy (ends : State → Prop) (s : State) (d : BitVec 5) (va : Word) (n : Nat) (conv : Nat → Word)
    (new : Nat → Option Word) : Prop :=
  ∀ (p : Piece) (l : Nat) (s1 : State), Memory.wf s.mem = true →
    s.reachesHere true true ⟨true, true, false⟩ va n p l s1 →
    let u := s1.markPiece .scalar true p
    u.readFails l n = false →
    let old := u.readLoc l n
    ∃ t, ends t ∧ s.wroteX t d (conv (valueOf old)) ∧ s.fellThrough t 4 ∧ s.hartFrame t ∧
      t.readLoc l n = ((new (valueOf old)).map fun w => lowBytes w n).getD old ∧
      ∀ k : Nat, ¬(l ≤ k ∧ k < l + n) → p.outsideEntry k → readCell t.mem k = readCell s.mem k

/-! ## Scalar accesses of other packages (R397, R399) -/

/-- A request of the current hart's scalar agent for `pa`. -/
def RemoteRequest.asks (r : RemoteRequest) (s : State) (pa : Nat) (k : RemoteKind) : Bool :=
  decide (r.owner = .hart s.hart.id) && decide (r.pa = pa) && decide (r.kind = k)

/-- A scalar store of the hart to the 32-byte word of another package has no answer yet (R100, R397). -/
def State.storeAwaited (s : State) (pa : Nat) : Bool :=
  s.remote.any fun r => decide (r.owner = .hart s.hart.id ∧ r.part = 0 ∧ r.id < s.nextRemote ∧ r.pa / 32 = pa / 32 ∧ r.status = .sent) &&
    r.kind.isWrite

/-- What a scalar read or atomic of another package does, `k` the request that it makes: it sends the request once and
waits, takes the answer when it has come, and raises ACCESS where the request has failed. `s1` is the state that its
checks leave. -/
def AsksAway (i : Instr) (s s1 : State) (len : Nat) (d : BitVec 5) (va : Word) (pa : Nat) (k : RemoteKind)
    (conv : Nat → Word) : Prop :=
  let found := s.remote.find? fun r => r.asks s pa k
  let waits := fun (rs : List RemoteRequest) => ∃ t, exec i s = .next t ∧ t.hart.wait = some i ∧ t.hart.pc = s.hart.pc ∧
    (∀ r, t.x r = s.x r) ∧ s1.sameMemory t ∧ t.remote = rs
  s.edge s.hart.pc (s.nextPc len) = .start →
    (found = none → s.storeAwaited pa = false →
      waits (s.remote ++ [⟨s.nextRemote, .hart s.hart.id, s.hart.id.setWidth 32, pa, va, 0, k, .sent⟩])) ∧
    ∀ r, found = some r →
      let rest := s.remote.filter fun q => decide (q.id ≠ r.id)
      (r.status = .sent → waits s.remote) ∧
      (∀ b, r.status = .answered b →
        ∃ t, exec i s = .next t ∧ s.wroteX t d (conv (valueOf b)) ∧ s.fellThrough t len ∧ s.hartFrame t ∧ t.remote = rest) ∧
      (r.status = .failed → s.hart.convoys = [] →
        exec i s = .next (({ s1 with remote := rest }).trap ⟨.access, s.hart.pc, va, 0, 0xFFFFFFFF⟩))

/-- A load of a remote page. -/
def LoadsAway (i : Instr) (s : State) (len : Nat) (d : BitVec 5) (va : Word) (n : Nat) (conv : Nat → Word) : Prop :=
  ∀ (p : Piece) (pa : Nat) (s1 : State), s.scalarReach true ⟨true, false, false⟩ false va n n = (.ok p, s1) →
    p.place = .away pa → AsksAway i s s1 len d va pa (.read n) conv

/-- A store to a remote page completes with its request sent, once no store of the hart to the same 32-byte word is without
its answer; until then it is executed again (R160, R397). -/
def StoresAway (i : Instr) (s : State) (len : Nat) (va : Word) (n : Nat) (w : Word) : Prop :=
  ∀ (p : Piece) (pa : Nat) (s1 : State), s.scalarReach false ⟨false, true, false⟩ false va n n = (.ok p, s1) →
    p.place = .away pa →
    (s.storeAwaited pa = true → exec i s = .next s1 ∧ s1.remote = s.remote ∧ s1.hart.pc = s.hart.pc) ∧
    (s.storeAwaited pa = false → ∃ t, exec i s = .next t ∧ s.fellThrough t len ∧ (∀ r, t.x r = s.x r) ∧ s.hartFrame t ∧
      t.remote = s.remote ++ [⟨s.nextRemote, .hart s.hart.id, s.hart.id.setWidth 32, pa, va, 0,
        .write ((lowBytes w n).map some) false, .sent⟩])

/-- An atomic of a remote page: add, swap and compare-and-swap are sent, and every other raises ACCESS (R107). -/
def AtomicAway (i : Instr) (s : State) (w : BitVec 1) (d b a : BitVec 5) (op : Nat) : Prop :=
  let n := if w = 0 then 4 else 8
  ∀ (p : Piece) (pa : Nat) (s1 : State), s.scalarReach true ⟨true, true, false⟩ true (s.x a) n n = (.ok p, s1) →
    p.place = .away pa →
    match (match op with
      | 0 => some UaOp.add
      | 6 => some UaOp.swap
      | 7 => some UaOp.cas
      | _ => none) with
    | some u => AsksAway i s s1 4 d (s.x a) pa (.atomic u (decide (w = 1)) (s.x b) (s.x d)) (signExtended (8 * n))
    | none => exec i s = .next (s1.trap ⟨.access, s.hart.pc, s.x a, 0, 0xFFFFFFFF⟩)

/-! ## Control flow and traps -/

/-- The instruction goes to `target`: the x register `d` receives `v`, the loop levels that it leaves are cancelled, and
nothing else changes. -/
def GoesTo (i : Instr) (s : State) (target : Word) (d : BitVec 5) (v : Word) : Prop :=
  ∃ t, exec i s = .next t ∧ s.wroteX t d v ∧ s.wentTo t target ∧ s.onlyXs t

/-- A branch goes to `target` where its condition holds, and else falls through. -/
def Branches (i : Instr) (s : State) (len : Nat) (c : Prop) (target : Word) : Prop :=
  (c → s.convoyStart target = true → GoesTo i s target 0 0) ∧ (¬c → Gives i s len 0 0)

/-- The instruction has no effect but to enter the trap `c`, at its own address, with `val` for TVAL, group 0 and no element;
`u` is the state that its checks leave. -/
def TrapsFrom (i : Instr) (s u : State) (c : Cause) (val : Word) : Prop :=
  exec i s = .next (u.trap ⟨c, s.hart.pc, val, 0, 0xFFFFFFFF⟩)

/-- The instruction has no effect but to enter the trap `c`. -/
def Traps (i : Instr) (s : State) (c : Cause) (val : Word) : Prop := TrapsFrom i s s c val

/-- The instruction waits: nothing changes but that the hart goes no further until the wait ends. -/
def Waits (i : Instr) (s : State) : Prop := exec i s = .next { s with hart := { s.hart with wait := some i } }

/-- After `s`, `t` is `u` with the instruction of `len` bytes fallen through: its x registers are those of `s`. -/
def CompletesBy (ends : State → Prop) (s u : State) (len : Nat) : Prop :=
  ∃ t, ends t ∧ s.fellThrough t len ∧ (∀ r, t.x r = s.x r) ∧ u.onlyXs t

/-- It is so when the instruction is executed. -/
def Completes (i : Instr) (s u : State) (len : Nat) : Prop := CompletesBy (Executes i s) s u len

/-- The address checks of a scalar access that come before its translation (R99): a non-canonical address raises ACCESS, and
one that is no multiple of the access size raises MISALIGN, each with the address as TVAL and no effect. -/
def ChecksAddress (i : Instr) (s : State) (va : Word) (n : Nat) : Prop :=
  (canonical va = false → Traps i s .access va) ∧
    (canonical va = true → va.toNat % n ≠ 0 → Traps i s .misalign va)

/-- What a finding of the translation means for a scalar access (R99, R150, R269): an INVALID entry stalls the hart with a
record, and any other finding but a wait raises ACCESS. `u` is what the finding leaves. -/
def FaultsAway (i : Instr) (s : State) (need : Need) (access : Nat) (va : Word) (n : Nat) : Prop :=
  ∀ (e : Stop) (u : State), canonical va = true → va.toNat % n = 0 → s.reach .scalar need va n = (.error e, u) →
    let v := { u.noteStop e with hart := { (u.noteStop e).hart with walked := false } }
    (∀ lvl x, e = .invalid lvl x → exec i s = .next (v.stall (.hart s.hart.id)
      ⟨va, s.hart.pc, s.hart.id.setWidth 16, 0, access, 0xFFFFFFFF, 0, lvl, 0xFF, s.hart.csr.farmid, s.hart.csr.ptbase⟩)) ∧
    ((∀ lvl x, e ≠ .invalid lvl x) → e ≠ .wait →
      exec i s = .next (v.trap ⟨.access, s.hart.pc, va, 0, 0xFFFFFFFF⟩))

/-! ## Results of other kinds -/

/-- A scalar floating instruction completes: `d` receives the bits of the result, the upper bits zero; its flags are ORed into
FPCTL[9:5], where none is cleared (R22, R25, R26). -/
def GivesFloat (i : Instr) (s : State) (d : BitVec 5) (r : Nat × Flags) : Prop :=
  ∃ t, exec i s = .next t ∧ s.wroteX t d (BitVec.ofNat 64 r.1) ∧ s.fellThrough t 4 ∧
    t.hart.csr.fpctl = s.hart.csr.fpctl ||| (r.2.setWidth 64 <<< 5) ∧
    ({ s with hart := { s.hart with csr := { s.hart.csr with fpctl := t.hart.csr.fpctl } } }).onlyXs t

/-- Nothing hinders an instruction that writes the mask `d` from the masks `ms` and the x registers `xs` (R81, R104, R135). -/
def State.maskFree (s : State) (d : BitVec 5) (xs ms : List (BitVec 5)) : Prop :=
  s.hart.busyX xs = false ∧ s.hart.busyMask (d :: ms) = false ∧ s.hart.owner.getD d.toNat none = none ∧
    s.edge s.hart.pc (s.nextPc 4) = .start

/-- The instruction completes: the mask `d` reads as `v`, or all ones if it is m0, and nothing else changes (R73). -/
def GivesMask (i : Instr) (s : State) (d : BitVec 5) (v : Mask) : Prop :=
  ∃ t, exec i s = .next t ∧ t.hart.mask d = (if d = 0 then BitVec.allOnes 8192 else v) ∧
    (∀ r, r ≠ d → t.hart.mask r = s.hart.mask r) ∧ s.fellThrough t 4 ∧ (∀ r, t.x r = s.x r) ∧
    ({ s with hart := { s.hart with m := t.hart.m } }).onlyXs t

/-- The governing bit of element `i` at width `w` (R72). -/
def governing (w i : Nat) : Nat := if w = 4 then i / 2 else i * (w / 8)

/-- `v` is the mask of `n` elements of width `w` for which `test` holds, every element active: a governing bit is 1 when the
test holds for each of its elements, and every other bit is 0 (R74). -/
def MaskOf (w n : Nat) (test : Nat → Prop) (v : Mask) : Prop :=
  ∀ b, v.getLsbD b = true ↔ (∃ i < n, governing w i = b) ∧ ∀ i < n, governing w i = b → test i

/-! ## Arrival words, waits and engine work -/

/-- Falling through `len` bytes on is no back edge: what follows does not hang on what memory holds at a loop's start. -/
def State.straight (s : State) (len : Nat) : Prop := (s.hart.csr.fallThrough s.hart.pc (s.nextPc len)).1 = s.nextPc len

/-- R194: the word after a contribution of `k`: the generation advances at most once, and an overshoot is sticky. -/
def contributed (w : Arrival) (k : BitVec 32) : Arrival :=
  let n := min (w.count.toNat + k.toNat) (2 ^ 32 - 1)
  let full := n = 2 ^ 32 - 1
  if w.target ≠ 0 ∧ w.target.toNat ≤ n then
    ⟨BitVec.ofNat 32 (n - w.target.toNat), w.target, w.generation + 1,
      if full ∨ n ≠ w.target.toNat then w.status ||| 1 else w.status⟩
  else ⟨BitVec.ofNat 32 n, w.target, w.generation, if full then w.status ||| 1 else w.status⟩

/-- R348: the word after an abort: the flag and the count of aborts in its status, and an armed word advances with its count
cleared. -/
def abortedWord (w : Arrival) : Arrival :=
  let n := min ((w.status.extractLsb' 8 8).toNat + 1) 255
  let st := (w.status &&& 0xFFFF00FF) ||| (BitVec.ofNat 32 n <<< 8) ||| 2
  if w.target = 0 then { w with status := st } else ⟨0, w.target, w.generation + 1, st⟩

/-- An update of the arrival word at `va` completes: the word becomes `new` of what it was, and nothing else of memory changes
(R195, R196). -/
def UpdatesWordBy (ends : State → Prop) (s : State) (va : Word) (new : Arrival → Arrival) : Prop :=
  ∀ (p : Piece) (l : Nat) (s1 : State), Memory.wf s.mem = true →
    s.reachesHere false true ⟨false, true, false⟩ va 16 p l s1 → l < scalarBase 0 →
    let u := s1.markPiece .scalar true p
    u.readFails l 16 = false →
    ∃ t, ends t ∧ t.arrival l = new (u.arrival l) ∧ s.fellThrough t 4 ∧ (∀ r, t.x r = s.x r) ∧ s.hartFrame t ∧
      ∀ k : Nat, ¬(l ≤ k ∧ k < l + 16) → p.outsideEntry k → readCell t.mem k = readCell s.mem k

/-- It is so when the instruction is executed. -/
def UpdatesWord (i : Instr) (s : State) (va : Word) (new : Arrival → Arrival) : Prop :=
  UpdatesWordBy (Executes i s) s va new

/-- A wait completes from `v`, the state that its check leaves: the hart sleeps no longer and goes on after it. -/
def Wakes (i : Instr) (s v : State) : Prop :=
  ∃ t, exec i s = .next t ∧ v.fellThrough t 4 ∧ (∀ r, t.x r = v.x r) ∧
    ({ v with hart := { v.hart with sleep := none } }).onlyXs t

/-- The wait changes nothing but that the hart sleeps on `w`, whose word lies at `l`, and that writes to that word are counted
from now on where they were not: a hart that sleeps already goes on with its sleep (R199, R200). -/
def Sleeps (i : Instr) (s v : State) (w : Watch) (l : Nat) : Prop :=
  let base := l / 32 * 32
  let inMemory := match w with
    | .slot _ _ => false
    | .gbar => false
    | _ => true
  let u := { v with watched :=
    if inMemory && !v.watched.any fun p => decide (p.1 = base) then v.watched ++ [(base, 0)] else v.watched }
  exec i s = .next { u with hart := { v.hart with sleep := some (match v.hart.sleep with
    | some z => { z with loc := base, seen := u.look w base }
    | none => ⟨w, false, false, base, u.look w base, false⟩) } }

/-- What a piece of engine work captures of the hart that starts it (R339). -/
def State.capturedBy (s : State) : Issuer :=
  ⟨s.hart.id, s.hart.serial, s.hart.csr.farmid, s.hart.csr.ptbase, s.hart.mode, s.hart.csr.ctxid.extractLsb' 0 48⟩

/-- An engine instruction completes: the job `j` enters the queue of the stack `st`, owning the mask `m` where one is named,
which reads as zero; nothing else changes. `v` is what the check of the arrival word leaves. -/
def EnqueuesBy (ends : State → Prop) (s v : State) (st : BitVec 4) (j : Job) (m : Option (BitVec 5)) : Prop :=
  ∃ t, ends t ∧ v.fellThrough t 4 ∧ (∀ r, t.x r = v.x r) ∧
    (∀ r : BitVec 5, t.hart.mask r = if m = some r ∧ r ≠ 0 then 0 else v.hart.mask r) ∧
    (∀ r : BitVec 5, r.toNat < 24 → t.hart.owner.getD r.toNat none =
      if m = some r then some v.nextWork else v.hart.owner.getD r.toNat none) ∧
    ({ v with
        works := v.works ++ [(⟨v.nextWork, st, s.capturedBy, false, none, j⟩ : Work)]
        nextWork := v.nextWork + 1
        hart := { v.hart with m := t.hart.m, owner := t.hart.owner } }).onlyXs t

/-- It is so in every way in which the instruction is performed. -/
def Enqueues (i : Instr) (s v : State) (st : BitVec 4) (j : Job) (m : Option (BitVec 5)) : Prop :=
  ∀ ends, s.performs i .engineEnqueue ends → EnqueuesBy ends s v st j m

/-- Earlier crown accesses are performed, and `v`, which the check of an engine instruction's arrival word leaves, lets it
fall through (R339). -/
def State.engineClear (s : State) (aw : Word) (v : State) : Prop :=
  s.hart.convoys = [] ∧ s.hart.stores = [] ∧ s.storesAway = false ∧ s.awCheck aw = (.ok (), v) ∧ v.unhindered 4 []

/-- No row of the register `r` is still to be written by a queued `mtv`, and no brim convoy reads or writes the mask `m`, where
one is named (R135, R229, R339). -/
def State.operandsFree (s : State) (r m : Option (BitVec 5)) : Prop :=
  (∀ a, r = some a → ∀ e ∈ s.hart.queue, e.op = .mtv → e.va ≠ a) ∧
    ∀ a, m = some a → a ≠ 0 → ∀ c ∈ s.hart.brimConvoys, a ∉ c.masks

/-- Nothing holds an engine instruction back. -/
def State.engineFree (s : State) (xs : List (BitVec 5)) (aw : Word) (v : State) : Prop :=
  s.hart.busyX xs = false ∧ s.engineClear aw v

/-- A matrix instruction of 8 bytes completes; `f` says what it does to the hart. -/
def PostsBy (ends : State → Prop) (s : State) (f : Hart → Hart) : Prop :=
  ∃ t, ends t ∧ s.fellThrough t 8 ∧ (∀ r, t.x r = s.x r) ∧ ({ s with hart := f s.hart }).onlyXs t

/-! ## What engine work reads and writes -/

/-- A byte of a piece that lies in this package. -/
def Piece.covers (p : Piece) (k : Nat) : Prop := ∃ l, p.place = .here l ∧ l ≤ k ∧ k < l + p.len

/-- Pieces of this package, none of whose bytes lies in a page-table entry that an access to them marks. -/
def readable (ps : List Piece) : Prop :=
  ∀ p ∈ ps, (∃ l, p.place = .here l) ∧ ∀ k, p.covers k → ∀ q ∈ ps, q.outsideEntry k

/-- Such pieces that share no byte. -/
def writable (ps : List Piece) : Prop := readable ps ∧ ps.Pairwise fun p q => ∀ k, p.covers k → ¬q.covers k

/-- The bytes of pieces of this package, one piece after another. -/
def State.bytesAt (s : State) (ps : List Piece) : List Byte :=
  ps.flatMap fun p =>
    match p.place with
    | .here l => s.readLoc l p.len
    | .away _ => []

/-- The places of the bytes of pieces of this package, one piece after another. -/
def locations (ps : List Piece) : List Nat :=
  ps.flatMap fun p =>
    match p.place with
    | .here l => (List.range p.len).map fun j => l + j
    | .away _ => []

/-- The destination sequence of a copy's rows: for each byte its row, its destination and its source (R343). -/
def sequence (rows : List (Word × Word × Nat)) : List (Nat × Word × Word) :=
  rows.zipIdx.flatMap fun r =>
    (List.range r.1.2.2).map fun j => (r.2, r.1.1 + BitVec.ofNat 64 j, r.1.2.1 + BitVec.ofNat 64 j)

/-- The bytes of pieces. -/
def totalLen (ps : List Piece) : Nat := (ps.map fun p => p.len).sum

/-- `t` differs from `s` in memory at most in the bytes of the pieces `ps` and in page-table entries of `ps` and `qs`. -/
def State.wroteOnly (s t : State) (ps qs : List Piece) : Prop :=
  ∀ k : Nat, (∀ p ∈ ps, ¬p.covers k) → (∀ p ∈ ps ++ qs, p.outsideEntry k) → readCell t.mem k = readCell s.mem k

/-- The arrival word of engine work: at `word`, in a window of the work's hart, or none. -/
def Work.informs (w : Work) (word : Option Nat) : Prop :=
  w.job.aw = 0 ∧ word = none ∨ ∃ l, windowLoc w.issuer.hart w.job.aw = some l ∧ word = some l

/-- The arrival word shares no byte with pieces, nor with the page-table entries that an access to them marks. -/
def clearOf (word : Option Nat) (ps : List Piece) : Prop :=
  ∀ l k : Nat, word = some l → l ≤ k → k < l + 16 → ∀ p ∈ ps, ¬p.covers k ∧ p.outsideEntry k

/-- A location outside the arrival word. -/
def offWord (word : Option Nat) (k : Nat) : Prop := ∀ l, word = some l → ¬(l ≤ k ∧ k < l + 16)

/-- The arrival word, where there is one, has received one contribution of `n` bytes (R346). -/
def State.contributedTo (s t : State) (word : Option Nat) (n : Nat) : Prop :=
  ∀ l, word = some l → t.arrival l = contributed (s.arrival l) (BitVec.ofNat 32 n)

/-- `t` differs from `s` in memory at most in the arrival word, the bytes of the pieces `ps`, and page-table entries of `ps`
and `qs`. -/
def State.wroteToo (s t : State) (ps qs : List Piece) (word : Option Nat) : Prop :=
  ∀ k : Nat, offWord word k → (∀ p ∈ ps, ¬p.covers k) → (∀ p ∈ ps ++ qs, p.outsideEntry k) →
    readCell t.mem k = readCell s.mem k

/-- Engine work has aborted for a cause: it is gone and owns no mask, its arrival word in a window of its hart took the abort
update, and the EVENT was sent, with `more` after it (R348). -/
def State.aborted (s t : State) (w : Work) (cause : Word) (more : List Message) : Prop :=
  t.works = s.works.filter (fun v => decide (v.id ≠ w.id)) ∧
    (∀ h ∈ t.hart :: t.parked, ∀ r : Nat, h.owner.getD r none ≠ some w.id) ∧
    t.plat.sent = s.plat.sent ++ Message.event 0x0021 (w.stack.setWidth 32) [w.job.aw, cause] :: more ∧
    (w.job.aw = 0 → s.sameMemory t) ∧
    ∀ l, w.job.aw ≠ 0 → windowLoc w.issuer.hart w.job.aw = some l →
      t.arrival l = abortedWord (s.arrival l) ∧ s.sameMemoryBut t l 16

/-! ## Vector registers -/

/-- Element `i` of a vector register at width `w` (R70). -/
def State.elem (s : State) (brim : Bool) (r i : Nat) : Nat := s.hart.elemAt brim r s.hart.elem.width i

/-- Nothing hinders the vector instruction `i` of the parts `v`, the only member of its convoy, and nothing that it could trap
on stands in a register: it issues from group 0 and runs on at once. -/
def State.vectorFree (s : State) (i : Instr) (v : VInfo) : Prop :=
  s.lag = false ∧ s.hart.live = true ∧ s.spilled s.hart = false ∧ s.hart.halted = false ∧
    s.stalled (.hart s.hart.id) = false ∧ s.stalled (.brim s.hart.id) = false ∧ s.hart.still = true ∧ s.hart.queue = [] ∧
    s.hart.stores = [] ∧ s.hart.reissue = 0 ∧ s.hart.wait = none ∧ s.hart.csr.bsum.getLsbD 23 = false ∧
    (∀ r ∈ s.remote, r.owner ≠ .brim s.hart.id) ∧
    vinfo i = some v ∧ v.c = false ∧ memberError s.hart.count true v.brim v = none ∧
    s.issueTrap [(i, s.hart.pc)] = none ∧ s.edge s.hart.pc (s.nextPc 4) = .start ∧
    s.hart.syncTrap [(i, s.hart.pc)] = none ∧ s.hart.badCrown = [] ∧ s.hart.badBrim = [] ∧
    ∀ g : Fin 256, s.hart.brimPoison[g] = 0

/-- The governing bit at width `w` of element `i` is 1 in the mask that governs an instruction of the parts `v` (R72). -/
def State.active (s : State) (v : VInfo) (w i : Nat) : Bool := (s.hart.mask (v.g.setWidth 5)).getLsbD (governing w i)

/-- The value of the instruction's first or second x register (R78). -/
def State.scalarA (s : State) (i : Instr) : Word := ((scalarFields i).1.map s.x).getD 0
/-- The value of the instruction's second x register. -/
def State.scalarB (s : State) (i : Instr) : Word := ((scalarFields i).2.map s.x).getD 0

/-- A brim-to-crown move (R146). -/
def VInfo.toCrown (v : VInfo) : Bool :=
  match v.kind with
  | .toCrown _ _ => true
  | _ => false

/-- The vector instruction completes: `flags` are collected, those of the brim agent are taken by a brim-to-crown move (R26),
and no x register or mask changes. -/
def VectorCompletes (i : Instr) (s t : State) (v : VInfo) (flags : Flags) : Prop :=
  exec i s = .next t ∧ s.fellThrough t 4 ∧ (∀ r, t.x r = s.x r) ∧ t.hart.m = s.hart.m ∧ t.hart.csr.cvret = s.hart.csr.cvret + 1 ∧ t.hart.convoys = [] ∧ t.hart.brimConvoys = [] ∧
    (if v.brim then t.hart.brimFlags = s.hart.brimFlags ||| flags ∧ t.hart.csr.fpctl = s.hart.csr.fpctl
      else if v.toCrown then
        t.hart.csr.fpctl = s.hart.csr.fpctl ||| ((flags ||| s.hart.brimFlags).setWidth 64 <<< 5) ∧ t.hart.brimFlags = 0
      else t.hart.csr.fpctl = s.hart.csr.fpctl ||| (flags.setWidth 64 <<< 5) ∧ t.hart.brimFlags = s.hart.brimFlags)

/-- The vector instruction completes and writes the register `d` of a bank: the elements that `on` names receive `f`, and
every other element of every register of both banks keeps its value. -/
def GivesVector (i : Instr) (s : State) (v : VInfo) (brim : Bool) (d : BitVec 5) (on : Nat → Bool) (f : Nat → Nat)
    (flags : Flags) : Prop :=
  ∃ t, VectorCompletes i s t v flags ∧ s.sameMemory t ∧
    (∀ k < s.hart.vmax, t.elem brim d.toNat k = if on k then f k % 2 ^ s.hart.elem.width else s.elem brim d.toNat k) ∧
    ∀ (b : Bool) (r k : Nat), r < s.hart.count.regs → (b ≠ brim ∨ r ≠ d.toNat) → k < s.hart.vmax → t.elem b r k = s.elem b r k

/-- The flags that the elements of a register raise. -/
def State.flagsOf (s : State) (on : Nat → Bool) (f : Nat → Flags) : Flags :=
  (List.range s.hart.vmax).foldl (fun (r : Flags) k => if on k then r ||| f k else r) 0

/-! ## The state of the scalar stream -/

/-- What holds of a hart at every point of a program: its pc and the addresses that it goes to are even, and FPCTL names a
rounding mode (R24, R68, R104). -/
def Hart.sound (h : Hart) : Prop :=
  h.pc.getLsbD 0 = false ∧ h.csr.tvec.getLsbD 0 = false ∧ h.csr.tepc.getLsbD 0 = false ∧ h.csr.utvec.getLsbD 0 = false ∧
    h.csr.uepc.getLsbD 0 = false ∧ (∀ k : Fin 2, h.csr.lstart[k].getLsbD 0 = false ∧ h.csr.lend[k].getLsbD 0 = false) ∧
    (h.csr.fpctl &&& 7).toNat ≤ 4

/-- It holds of every hart, and memory has its canonical form. -/
def State.sound (s : State) : Prop := Memory.wf s.mem = true ∧ s.hart.sound ∧ ∀ h ∈ s.parked, h.sound

/-- The instructions that compute on x registers, access memory, transfer control, or read and write hart CSRs. -/
def isScalar (i : Instr) : Bool :=
  match i with
  | .ldB _ _ _ | .ldBn _ _ _ | .ldH _ _ _ | .ldHn _ _ _ | .ldW _ _ _ | .ldWn _ _ _ | .ldD _ _ _ | .stB _ _ _ => true
  | .stH _ _ _ | .stW _ _ _ | .stD _ _ _ | .amoadd _ _ _ _ _ | .amoand _ _ _ _ _ | .amoor _ _ _ _ _ | .amoxor _ _ _ _ _ => true
  | .amomin _ _ _ _ _ | .amomax _ _ _ _ _ | .amoswap _ _ _ _ _ | .amocas _ _ _ _ _ | .cLdW _ _ _ | .cLdD _ _ => true
  | .cStW _ _ _ | .cStD _ _ | .add _ _ _ | .sub _ _ _ | .and _ _ _ | .or _ _ _ | .xor _ _ _ | .andn _ _ _ | .sll _ _ _ => true
  | .srl _ _ _ | .sra _ _ _ | .slt _ _ _ | .sltn _ _ _ | .min _ _ _ | .minn _ _ _ | .max _ _ _ | .maxn _ _ _ => true
  | .mul _ _ _ | .mulh _ _ _ | .mulhn _ _ _ | .div _ _ _ | .divn _ _ _ | .rem _ _ _ | .remn _ _ _ | .clz _ _ | .ctz _ _ => true
  | .popc _ _ | .sextB _ _ | .sextH _ _ | .sextW _ _ | .zextW _ _ | .addw _ _ _ | .subw _ _ _ | .sllw _ _ _ => true
  | .srlw _ _ _ | .sraw _ _ _ | .mulw _ _ _ | .divw _ _ _ | .divnw _ _ _ | .remw _ _ _ | .remnw _ _ _ | .addi _ _ _ => true
  | .andi _ _ _ | .ori _ _ _ | .xori _ _ _ | .slti _ _ _ | .sltni _ _ _ | .slli _ _ _ | .srli _ _ _ | .srai _ _ _ => true
  | .lhi _ _ | .pcadd _ _ | .beq _ _ _ | .bne _ _ _ | .blt _ _ _ | .bge _ _ _ | .bltn _ _ _ | .bgen _ _ _ | .bbs _ _ _ => true
  | .bbc _ _ _ | .jal _ _ | .jalr _ _ _ | .loop _ _ _ | .ecall | .ebreak | .eret | .uret | .pause | .fadd _ _ _ _ => true
  | .fsub _ _ _ _ | .fmul _ _ _ _ | .fdiv _ _ _ _ | .fsqrt _ _ _ | .fmin _ _ _ _ | .fmax _ _ _ _ | .fsgnj _ _ _ _ => true
  | .fsgnjn _ _ _ _ | .fsgnjx _ _ _ _ | .feq _ _ _ _ | .flt _ _ _ _ | .fle _ _ _ _ | .fclass _ _ _ | .fcvtI _ _ _ _ => true
  | .fcvtF _ _ _ _ | .fcvtFf _ _ _ _ | .fma _ _ _ _ _ | .fms _ _ _ _ _ | .fnma _ _ _ _ _ | .fnms _ _ _ _ _ | .cAddi _ _ => true
  | .cLi _ _ | .cLhi _ _ | .cSlli _ _ | .cSrli _ _ | .cSrai _ _ | .cAdd _ _ | .cSub _ _ | .cMv _ _ | .cAnd _ _ => true
  | .cOr _ _ | .cXor _ _ | .cJ _ | .cBeqz _ _ | .cBnez _ _ | .cJr _ | .cJalr _ | .cRet | .cNop | .cEbreak => true
  | .csrr _ csr | .csrw _ csr _ | .csrs _ csr _ | .csrc _ csr _ => decide (csr.toNat < 0x180)
  | _ => false

end Sys2Proof.Machine
end

