-- ==== Sys2Proof/Certificates/Slice0/Obligations.lean ====
section
/-! DEFINITION. Obligations.lean: the statements for the provers, in the order of OBLIGATIONS.json. -/

open Sys2Proof Sys2Proof.Machine

/-! ## Terms of several statements -/

/-- R107: what each operation writes, for an old value of `n` bits. -/
def amoResult (op n : Nat) (old : Nat) (b expected : Word) : Option Word :=
  let o := BitVec.ofNat n old
  let c := BitVec.ofNat n b.toNat
  match op with
  | 0 => some (BitVec.ofNat 64 (o + c).toNat)
  | 1 => some (BitVec.ofNat 64 (o &&& c).toNat)
  | 2 => some (BitVec.ofNat 64 (o ||| c).toNat)
  | 3 => some (BitVec.ofNat 64 (o ^^^ c).toNat)
  | 4 => some (BitVec.ofNat 64 (if o.toInt ≤ c.toInt then o else c).toNat)
  | 5 => some (BitVec.ofNat 64 (if c.toInt ≤ o.toInt then o else c).toNat)
  | 6 => some (BitVec.ofNat 64 c.toNat)
  | _ => if o = BitVec.ofNat n expected.toNat then some (BitVec.ofNat 64 c.toNat) else none

/-- The hart CSRs whose every RW field is stored as written, with the bits that are RW (R87 and the CSR maps). -/
def plainCsrs : List (Nat × Word) :=
  [(0x004, 0xFFFFFFFF), (0x00A, ~~~0), (0x00B, ~~~1), (0x00C, ~~~1), (0x00D, ~~~0), (0x00E, ~~~1), (0x00F, ~~~1),
   (0x018, ~~~0), (0x01A, 0xFFFFFFFF), (0x01B, ~~~0), (0x020, 0xFFFFFFFF), (0x021, 0xFFFFFFFF), (0x024, ~~~0),
   (0x028, ~~~0), (0x029, ~~~0), (0x02A, ~~~0), (0x02B, ~~~0), (0x02C, ~~~0), (0x040, ~~~1), (0x041, ~~~1),
   (0x042, 0x3F), (0x043, 0x3F), (0x044, 0xFFFFFFFF), (0x045, ~~~0), (0x100, 3), (0x101, ~~~1), (0x102, ~~~1),
   (0x103, 0x3F), (0x104, ~~~0), (0x105, 0x3F), (0x106, 0xFFFFFFFF), (0x109, 0xFFFFFFFFFFFFF000)]

/-- The operand of a format in an x register: its low bits (R22). -/
def operand (s : State) (f : Elem) (r : BitVec 5) : Nat := (s.x r).toNat % 2 ^ f.width

/-- Two rows that share their encoding with another row: an x register names the operation (R362, R404; assumption log 9). -/
def sharesItsWord (i : Instr) : Bool :=
  match i with
  | .stctlAsid _ _ => true
  | .stctlAll _ _ => true
  | .collAllGather _ _ _ => true
  | .collReduceScatter _ _ _ => true
  | _ => false

/-- The rows of the table that no bytes stand for: the events, and the two items that a fetch ends in (R42, R274). -/
def isNoWord (i : Instr) : Bool :=
  match i with
  | .convoyGroupCommit _ | .brimGroupCommit _ | .brimConvoyComplete _ | .brimSyncSend _ | .bsyncDone _ => true
  | .vcfgReshape _ | .fenceDone _ | .icsyncDone _ | .csrWriteApply _ | .releaseStorePerform _ => true
  | .awaddContribution _ | .nearMemoryAtomic _ | .loadDataReturn _ | .waitWake _ | .gbarRelease _ => true
  | .carriveArrival _ | .pauseExpiry _ | .issueFairness _ | .clockGate _ | .powerGate _ | .residencyReport _ => true
  | .matrixPost _ | .matrixEntryComplete _ | .mtvPost _ | .mshapeApply _ | .msyncDone _ | .translationWalkDone _ => true
  | .walkerFailure _ | .xinvComplete _ | .launchHandoff _ | .launchAccept | .dependenceReached _ | .farmServe => true
  | .sliceSpillDone | .hartStart | .stripHandout _ | .retireLeave _ | .farmComplete _ | .farmFail _ _ => true
  | .starvationPromotion _ | .engineEnqueue _ | .copyChunkDelivery _ _ | .embeddingRecordDone _ _ => true
  | .probeDecision _ | .tileSettled _ _ | .fillEntry _ | .stctlDone _ | .collComplete _ | .collTimeout _ => true
  | .pmigCopyDone _ | .dramRatioChange _ | .crownLatencyTarget _ _ | .ualinkRequestIn _ | .ualinkResponse _ _ _ => true
  | .ualinkRequestTimeout _ | .ualinkLaneFailure _ _ | .spinelLinkFailed _ | .clusterLinkFailed _ _ _ => true
  | .berylPortDown | .berylPortUp | .mwrite _ _ _ _ | .mread _ _ _ | .launchMessage _ _ _ _ _ _ | .signal _ _ _ => true
  | .replay _ _ | .attest _ _ | .attestReply | .malformedMessage _ | .mgmtIdentify _ | .mgmtReset _ => true
  | .mgmtCsrWrite _ _ _ | .mgmtCsrRead _ _ | .mgmtExtend _ _ | .mgmtFirmwareWrite _ _ _ _ => true
  | .mgmtSetIdentity _ _ _ | .mgmtEndFarm _ _ | .powerGood | .berylTrained | .firmwareVerify | .trainingDone => true
  | .thermalTrip _ | .throttle _ _ | .fpctlWrite _ | .ffxWrite _ | .bsumWrite _ | .ptbaseWrite _ | .xinvPage _ => true
  | .xinvAll _ | .fbtailWrite _ | .fbbaseWrite _ | .fbsizeWrite _ | .spbaseWrite _ | .spsizeWrite _ => true
  | .bsaveWrite _ | .pwrcapWrite _ | .stabaseWrite _ | .stalimitWrite _ | .acdataRead _ | .stcdataRead _ => true
  | .wstatRead _ | .cerrRead _ | .fcstatRead _ | .brstatRead _ | .pwrstatRead _ | .registerWrite _ => true
  | .powerRemoved | .notAnInstruction | .instructionFetchFault | .spinelRequestIn _ | .crownToStackLinkFailed _ => true
  | .failedRead _ _ | .storePerformed _ _ => true
  | _ => false

/-- R18: the mantissa bits and the exponent bits of a floating format. -/
def fields : Elem → Nat × Nat
  | .fp64 => (52, 11)
  | .fp32 => (23, 8)
  | .fp16 => (10, 5)
  | .bf16 => (7, 8)
  | .e4m3 => (3, 4)
  | .e5m2 => (2, 5)
  | .e2m1 => (1, 2)

/-- R18: the exponent of the smallest normal magnitude of a format. -/
def leastExponent (F : Elem) : Int := 2 - 2 ^ ((fields F).2 - 1)

/-- R18: the value of the bits of a format; none for an infinity or a NaN. -/
def finite (F : Elem) (bits : Nat) : Option Rat :=
  let p := (fields F).1
  let k := (fields F).2
  let m := bits % 2 ^ p
  let e := bits / 2 ^ p % 2 ^ k
  let s : Rat := if bits / 2 ^ (p + k) % 2 = 1 then -1 else 1
  let v : Rat := if e = 0 then m * (2 : Rat) ^ (leastExponent F - p) else (2 ^ p + m : Nat) * (2 : Rat) ^ (leastExponent F - 1 + e - p)
  match F with
  | .e2m1 => some (s * v)
  | .e4m3 => if e = 15 ∧ m = 7 then none else some (s * v)
  | _ => if e = 2 ^ k - 1 then none else some (s * v)

/-- R24: `y` is `x` rounded by a mode to a multiple of `g`. -/
def RoundsTo (rm : Nat) (x g y : ℝ) : Prop :=
  ∃ n : Int, y = n * g ∧ |y - x| < g ∧
    match rm with
    | 0 => |y - x| ≤ g / 2 ∧ (|y - x| = g / 2 → n % 2 = 0)
    | 1 => |y| ≤ |x|
    | 2 => y ≤ x
    | 3 => x ≤ y
    | _ => |y - x| ≤ g / 2 ∧ (|y - x| = g / 2 → |x| ≤ |y|)

/-- R24, R25, R28, R31: `r` holds the bits and the flags of the exact nonzero `x`, rounded once to the format: overflow is
judged with an unbounded exponent, tininess after rounding, and subnormal results are kept. -/
def Rounds (F : Elem) (rm : Nat) (sat : Bool) (x : ℝ) (r : Nat × Flags) : Prop :=
  let p : Int := (fields F).1
  let sign := 2 ^ ((fields F).1 + (fields F).2)
  let signed := fun (bits : Nat) => if x < 0 then sign + bits else bits
  ∀ (k : Int) (largest : Rat), finite F F.maxBits = some largest → (2 : ℝ) ^ k ≤ |x| → |x| < (2 : ℝ) ^ (k + 1) →
    ∃ u y : ℝ, RoundsTo rm x ((2 : ℝ) ^ (k - p)) u ∧ RoundsTo rm x ((2 : ℝ) ^ (max k (leastExponent F) - p)) y ∧
      if (largest : ℝ) < |u| then
        let atMost := sat = true ∨ rm = 1 ∨ rm = 2 ∧ 0 < x ∨ rm = 3 ∧ x < 0
        r.2 = flagOF ||| flagNX ∧
          (F = .e2m1 ∨ atMost → r.1 = signed F.maxBits) ∧
          (F = .e4m3 → ¬atMost → r.1 = 0x7F) ∧
          (F ≠ .e2m1 → F ≠ .e4m3 → ¬atMost → r.1 = signed (F.maxBits + 1))
      else
        (∃ v : Rat, finite F r.1 = some v ∧ (v : ℝ) = y) ∧ r.1 / sign = (if x < 0 then 1 else 0) ∧
          r.2 = (if y = x then 0 else if |u| < (2 : ℝ) ^ leastExponent F then flagNX ||| flagUF else flagNX)

/-- R18: the bits of a format are an infinity: FP64, FP32, FP16, BF16 and E5M2 have one of each sign. -/
def infinite (F : Elem) (bits : Nat) : Prop :=
  F ≠ .e4m3 ∧ F ≠ .e2m1 ∧ bits % 2 ^ ((fields F).1 + (fields F).2) = (2 ^ (fields F).2 - 1) * 2 ^ (fields F).1

/-- R18: the bits of a format are a NaN. -/
def notNumber (F : Elem) (bits : Nat) : Prop := finite F bits = none ∧ ¬infinite F bits

/-- R18: the sign bit of the bits of a format is 1. -/
def negative (F : Elem) (bits : Nat) : Bool := decide (bits / 2 ^ ((fields F).1 + (fields F).2) % 2 = 1)

/-- R18: the value of the bits of a format, infinities included; a NaN has none. -/
def HasValue (F : Elem) (bits : Nat) (v : EReal) : Prop :=
  (∃ x : Rat, finite F bits = some x ∧ v = ((x : ℝ) : EReal)) ∨ (infinite F bits ∧ v = if negative F bits then ⊥ else ⊤)

/-- R27: the canonical NaN of a format; in E2M1, which has none, +6. -/
def canonicalNaN : Elem → Nat
  | .fp64 => 0x7FF8000000000000
  | .fp32 => 0x7FC00000
  | .fp16 => 0x7E00
  | .bf16 => 0x7FC0
  | .e4m3 => 0x7F
  | .e5m2 => 0x7E
  | .e2m1 => 0x7

/-- R33: what the exact `x` gives in an integer format of `w` bits: rounded, and clamped to the range. -/
def Clamps (w : Nat) (isSigned : Bool) (rm : Nat) (x : ℝ) (r : Nat × Flags) : Prop :=
  let lo : Int := if isSigned then -2 ^ (w - 1) else 0
  let hi : Int := if isSigned then 2 ^ (w - 1) - 1 else 2 ^ w - 1
  ∃ n : Int, RoundsTo rm x 1 n ∧ r =
    if n < lo then ((lo % 2 ^ w).toNat, flagNV) else if hi < n then (hi.toNat, flagNV)
    else ((n % 2 ^ w).toNat, if (n : ℝ) = x then 0 else flagNX)

/-- R35: what the exact nonzero `x` gives in E8M0. -/
def Scales (x : Rat) (r : Nat × Flags) : Prop :=
  ∀ e : Int, (2 : Rat) ^ e ≤ |x| → |x| < (2 : Rat) ^ (e + 1) →
    r = if e + 127 < 0 then (0, flagUF ||| flagNX) else if 254 < e + 127 then (0xFE, flagOF ||| flagNX)
      else ((e + 127).toNat, if x = (2 : Rat) ^ e then 0 else flagNX)

/-- R38, R40: `out` is what the products of `pairs` and the old element `old` accumulate to: a pair is a multiplicand of
each format and the exponent of the block scales of the two, none where a scale is 0xFF. -/
def AccWindow (F G : Elem) (neg sat ovw : Bool) (pairs : List (Nat × Nat × Option Int)) (old out : BitVec 32) : Prop :=
  let bad := (∃ q ∈ pairs, notNumber F q.1 ∨ notNumber G q.2.1 ∨ q.2.2 = none ∨
      (infinite F q.1 ∧ finite G q.2.1 = some 0) ∨ (finite F q.1 = some 0 ∧ infinite G q.2.1)) ∨
    (ovw = false ∧ notNumber .fp32 old.toNat)
  let hasInf := fun (sign : Bool) =>
    (∃ q ∈ pairs, (infinite F q.1 ∨ infinite G q.2.1) ∧ ((negative F q.1 ^^ negative G q.2.1) ^^ neg) = sign) ∨
      (ovw = false ∧ infinite .fp32 old.toNat ∧ negative .fp32 old.toNat = sign)
  let terms : List Rat := pairs.map (fun q => (if neg then -1 else 1) * ((finite F q.1).getD 0 * (finite G q.2.1).getD 0) *
    (2 : Rat) ^ q.2.2.getD 0) ++ if ovw then [] else [(finite .fp32 old.toNat).getD 0]
  (bad ∨ (hasInf false ∧ hasInf true) → out = 0x7FC00000) ∧
    (¬bad → hasInf false → ¬hasInf true → out = 0x7F800000) ∧
    (¬bad → hasInf true → ¬hasInf false → out = 0xFF800000) ∧
    (¬bad → ¬hasInf false → ¬hasInf true →
      ((∀ t ∈ terms, t = 0) → out = 0) ∧
      ∀ e : Int, (∃ t ∈ terms, (2 : Rat) ^ e ≤ |t|) → (∀ t ∈ terms, |t| < (2 : Rat) ^ (e + 1)) →
        let u := (2 : Rat) ^ (e - 40)
        let S := (terms.map fun t => (if t < 0 then -1 else 1) * ((⌊|t| / u⌋ : Int) : Rat) * u).sum
        if S = 0 then out = 0 else ∃ f, Rounds .fp32 0 sat S (out.toNat, f))

/-! ## Integer instructions (R92 to R97, R46) -/

/-- R93: each OP instruction of two sources computes rd from the sources as its row of the table says. R93: the unary
forms. A count of zero bits is described by the bits themselves. -/
def Obligations.IntegerResults : Prop :=
  (
  ∀ (s : State) (d a b : BitVec 5), s.unhindered 4 [d, a, b] →
    Gives (.add d a b) s 4 d (BitVec.ofNat 64 ((s.x a).toNat + (s.x b).toNat)) ∧
    Gives (.sub d a b) s 4 d (BitVec.ofInt 64 ((s.x a).toNat - (s.x b).toNat)) ∧
    Gives (.and d a b) s 4 d (s.x a &&& s.x b) ∧
    Gives (.or d a b) s 4 d (s.x a ||| s.x b) ∧
    Gives (.xor d a b) s 4 d (s.x a ^^^ s.x b) ∧
    Gives (.andn d a b) s 4 d (s.x a &&& ~~~s.x b) ∧
    Gives (.sll d a b) s 4 d (BitVec.ofNat 64 ((s.x a).toNat * 2 ^ ((s.x b).toNat % 64))) ∧
    Gives (.srl d a b) s 4 d (BitVec.ofNat 64 ((s.x a).toNat / 2 ^ ((s.x b).toNat % 64))) ∧
    Gives (.sra d a b) s 4 d (BitVec.ofInt 64 ((s.x a).toInt / 2 ^ ((s.x b).toNat % 64))) ∧
    Gives (.slt d a b) s 4 d (if (s.x a).toInt < (s.x b).toInt then 1 else 0) ∧
    Gives (.sltn d a b) s 4 d (if (s.x a).toNat < (s.x b).toNat then 1 else 0) ∧
    Gives (.min d a b) s 4 d (BitVec.ofInt 64 (min (s.x a).toInt (s.x b).toInt)) ∧
    Gives (.max d a b) s 4 d (BitVec.ofInt 64 (max (s.x a).toInt (s.x b).toInt)) ∧
    Gives (.minn d a b) s 4 d (BitVec.ofNat 64 (min (s.x a).toNat (s.x b).toNat)) ∧
    Gives (.maxn d a b) s 4 d (BitVec.ofNat 64 (max (s.x a).toNat (s.x b).toNat)) ∧
    Gives (.mul d a b) s 4 d (BitVec.ofNat 64 ((s.x a).toNat * (s.x b).toNat)) ∧
    Gives (.mulh d a b) s 4 d (((s.x a).signExtend 128 * (s.x b).signExtend 128).extractLsb' 64 64) ∧
    Gives (.mulhn d a b) s 4 d (((s.x a).setWidth 128 * (s.x b).setWidth 128).extractLsb' 64 64)) ∧
  (
  ∀ (s : State) (d a : BitVec 5), s.unhindered 4 [d, a] →
    (∃ n ≤ 64, Gives (.clz d a) s 4 d (BitVec.ofNat 64 n) ∧ (∀ k < n, (s.x a).getLsbD (63 - k) = false) ∧
      (n < 64 → (s.x a).getLsbD (63 - n) = true)) ∧
    (∃ n ≤ 64, Gives (.ctz d a) s 4 d (BitVec.ofNat 64 n) ∧ (∀ k < n, (s.x a).getLsbD k = false) ∧
      (n < 64 → (s.x a).getLsbD n = true)) ∧
    Gives (.popc d a) s 4 d (BitVec.ofNat 64 ((List.range 64).countP fun k => (s.x a).getLsbD k)) ∧
    Gives (.sextB d a) s 4 d (((s.x a).extractLsb' 0 8).signExtend 64) ∧
    Gives (.sextH d a) s 4 d (((s.x a).extractLsb' 0 16).signExtend 64) ∧
    Gives (.sextW d a) s 4 d (((s.x a).extractLsb' 0 32).signExtend 64) ∧
    Gives (.zextW d a) s 4 d (((s.x a).extractLsb' 0 32).setWidth 64))

/-- R94: division truncates toward zero and never traps, with the values that its pseudocode names for the corners. R95:
the 32-bit forms work on the low halves and deliver the sign extension of a 32-bit result. -/
def Obligations.DivisionResults : Prop :=
  (
  ∀ (s : State) (d a b : BitVec 5), s.unhindered 4 [d, a, b] →
    Gives (.div d a b) s 4 d
      (if s.x b = 0 then BitVec.allOnes 64
       else if (s.x a).toInt = -2 ^ 63 ∧ (s.x b).toInt = -1 then s.x a
       else BitVec.ofInt 64 ((s.x a).toInt.tdiv (s.x b).toInt)) ∧
    Gives (.rem d a b) s 4 d
      (if s.x b = 0 then s.x a
       else if (s.x a).toInt = -2 ^ 63 ∧ (s.x b).toInt = -1 then 0
       else BitVec.ofInt 64 ((s.x a).toInt - (s.x b).toInt * (s.x a).toInt.tdiv (s.x b).toInt)) ∧
    Gives (.divn d a b) s 4 d
      (if s.x b = 0 then BitVec.allOnes 64 else BitVec.ofNat 64 ((s.x a).toNat / (s.x b).toNat)) ∧
    Gives (.remn d a b) s 4 d (if s.x b = 0 then s.x a else BitVec.ofNat 64 ((s.x a).toNat % (s.x b).toNat))) ∧
  (
  ∀ (s : State) (d a b : BitVec 5), s.unhindered 4 [d, a, b] →
    let u := (s.x a).extractLsb' 0 32
    let v := (s.x b).extractLsb' 0 32
    Gives (.addw d a b) s 4 d ((BitVec.ofNat 32 (u.toNat + v.toNat)).signExtend 64) ∧
    Gives (.subw d a b) s 4 d ((BitVec.ofInt 32 (u.toNat - v.toNat)).signExtend 64) ∧
    Gives (.sllw d a b) s 4 d ((BitVec.ofNat 32 (u.toNat * 2 ^ (v.toNat % 32))).signExtend 64) ∧
    Gives (.srlw d a b) s 4 d ((BitVec.ofNat 32 (u.toNat / 2 ^ (v.toNat % 32))).signExtend 64) ∧
    Gives (.sraw d a b) s 4 d ((BitVec.ofInt 32 (u.toInt / 2 ^ (v.toNat % 32))).signExtend 64) ∧
    Gives (.mulw d a b) s 4 d ((BitVec.ofNat 32 (u.toNat * v.toNat)).signExtend 64) ∧
    Gives (.divw d a b) s 4 d
      (if v = 0 then BitVec.allOnes 64
       else if u.toInt = -2 ^ 31 ∧ v.toInt = -1 then u.signExtend 64
       else (BitVec.ofInt 32 (u.toInt.tdiv v.toInt)).signExtend 64) ∧
    Gives (.remw d a b) s 4 d
      (if v = 0 then u.signExtend 64
       else if u.toInt = -2 ^ 31 ∧ v.toInt = -1 then 0
       else (BitVec.ofInt 32 (u.toInt.tmod v.toInt)).signExtend 64) ∧
    Gives (.divnw d a b) s 4 d
      (if v = 0 then BitVec.allOnes 64 else (BitVec.ofNat 32 (u.toNat / v.toNat)).signExtend 64) ∧
    Gives (.remnw d a b) s 4 d
      (if v = 0 then u.signExtend 64 else (BitVec.ofNat 32 (u.toNat % v.toNat)).signExtend 64))

/-- R96, R97: ADDI, OPI and the two constant instructions. R46: each compressed form does what its expansion does, and
goes on 2 bytes further. Its 3-bit register fields name x1 to x8. -/
def Obligations.ImmediateResults : Prop :=
  (
  ∀ (s : State) (d a : BitVec 5) (i13 : BitVec 13) (i10 : BitVec 10) (sh : BitVec 6) (i18 : BitVec 18),
    s.unhindered 4 [d, a] →
    Gives (.addi d a i13) s 4 d (BitVec.ofInt 64 ((s.x a).toInt + i13.toInt)) ∧
    Gives (.andi d a i10) s 4 d (s.x a &&& i10.signExtend 64) ∧
    Gives (.ori d a i10) s 4 d (s.x a ||| i10.signExtend 64) ∧
    Gives (.xori d a i10) s 4 d (s.x a ^^^ i10.signExtend 64) ∧
    Gives (.slti d a i10) s 4 d (if (s.x a).toInt < i10.toInt then 1 else 0) ∧
    Gives (.sltni d a i10) s 4 d (if (s.x a).toNat < (BitVec.ofInt 64 i10.toInt).toNat then 1 else 0) ∧
    Gives (.slli d a sh) s 4 d (BitVec.ofNat 64 ((s.x a).toNat * 2 ^ sh.toNat)) ∧
    Gives (.srli d a sh) s 4 d (BitVec.ofNat 64 ((s.x a).toNat / 2 ^ sh.toNat)) ∧
    Gives (.srai d a sh) s 4 d (BitVec.ofInt 64 ((s.x a).toInt / 2 ^ sh.toNat)) ∧
    Gives (.lhi d i18) s 4 d (BitVec.ofInt 64 (i18.toInt * 2 ^ 13)) ∧
    Gives (.pcadd d i18) s 4 d (BitVec.ofInt 64 (s.hart.pc.toNat + i18.toInt * 2 ^ 13))) ∧
  (
  ∀ (s : State) (d a : BitVec 3) (i : BitVec 7) (sh : BitVec 6) (rd ra : BitVec 5),
    rd.toNat = 1 + d.toNat → ra.toNat = 1 + a.toNat → s.unhindered 2 [rd, ra] →
    Gives (.cAddi d i) s 2 rd (BitVec.ofInt 64 ((s.x rd).toInt + i.toInt)) ∧
    Gives (.cLi d i) s 2 rd (BitVec.ofInt 64 i.toInt) ∧
    Gives (.cLhi d i) s 2 rd (BitVec.ofInt 64 (i.toInt * 2 ^ 13)) ∧
    Gives (.cSlli d sh) s 2 rd (BitVec.ofNat 64 ((s.x rd).toNat * 2 ^ sh.toNat)) ∧
    Gives (.cSrli d sh) s 2 rd (BitVec.ofNat 64 ((s.x rd).toNat / 2 ^ sh.toNat)) ∧
    Gives (.cSrai d sh) s 2 rd (BitVec.ofInt 64 ((s.x rd).toInt / 2 ^ sh.toNat)) ∧
    Gives (.cAdd d a) s 2 rd (s.x rd + s.x ra) ∧
    Gives (.cSub d a) s 2 rd (s.x rd - s.x ra) ∧
    Gives (.cAnd d a) s 2 rd (s.x rd &&& s.x ra) ∧
    Gives (.cOr d a) s 2 rd (s.x rd ||| s.x ra) ∧
    Gives (.cXor d a) s 2 rd (s.x rd ^^^ s.x ra) ∧
    Gives (.cMv d a) s 2 rd (s.x ra) ∧
    Gives .cNop s 2 0 0)

/-! ## Loads, stores and atomics (R98 to R100, R107, R164, R165) -/

/-- R98, R164, R46: every load delivers the sign or zero extension of the little-endian value at its address. R46: the
compressed loads and stores. R99: the address checks of each load, and what a finding of its translation does. R397,
R399: a load of a remote page asks for its bytes, waits, and takes the answer. Each load completes when it is executed, or
in the event that ends its wait (R100). -/
def Obligations.LoadResults : Prop :=
  (
  ∀ (s : State) (d a : BitVec 5) (i : BitVec 10) (sc : BitVec 4), s.unhindered 4 [d, a] →
    let ea := BitVec.ofInt 64 ((s.x a).toInt + i.toInt)
    let loads := fun (i : Instr) (va : Word) (n : Nat) (conv : Nat → Word) =>
      (∀ ends, s.performs i .loadDataReturn ends → LoadsBy ends s 4 d va n conv) ∧
        (s.lag = false → LoadsAway i s 4 d va n conv ∧
          (s.hart.convoys = [] → ChecksAddress i s va n ∧ FaultsAway i s ⟨true, false, false⟩ 1 va n))
    loads (.ldB d a i) ea 1 (signExtended 8) ∧ loads (.ldBn d a i) ea 1 (BitVec.ofNat 64) ∧
    loads (.ldH d a i) ea 2 (signExtended 16) ∧ loads (.ldHn d a i) ea 2 (BitVec.ofNat 64) ∧
    loads (.ldW d a i) ea 4 (signExtended 32) ∧ loads (.ldWn d a i) ea 4 (BitVec.ofNat 64) ∧
    loads (.ldD d a i) ea 8 (BitVec.ofNat 64) ∧ loads (.ldAcqW d a sc) (s.x a) 4 (signExtended 32) ∧
    loads (.ldAcqD d a sc) (s.x a) 8 (BitVec.ofNat 64)) ∧
  (
  ∀ (s : State) (d a : BitVec 3) (u5 : BitVec 5) (u6 : BitVec 6) (rd ra : BitVec 5),
    rd.toNat = 1 + d.toNat → ra.toNat = 1 + a.toNat →
    let word := BitVec.ofNat 64 ((s.x ra).toNat + 4 * u5.toNat)
    let slot := BitVec.ofNat 64 ((s.x 30).toNat + 8 * u6.toNat)
    let atOnce := s.lag = false ∧ s.hart.stores = [] ∧ s.hart.loading = false
    (s.unhindered 2 [rd, ra] →
      (∀ ends, s.performs (.cLdW d a u5) .loadDataReturn ends → LoadsBy ends s 2 rd word 4 (signExtended 32)) ∧
      (atOnce → Stores (.cStW d a u5) s false 2 word 4 (s.x rd))) ∧
    (s.unhindered 2 [rd, 30] →
      (∀ ends, s.performs (.cLdD d u6) .loadDataReturn ends → LoadsBy ends s 2 rd slot 8 (BitVec.ofNat 64)) ∧
      (atOnce → Stores (.cStD d u6) s false 2 slot 8 (s.x rd))))

/-- R98: every store writes the low bytes of its data register at its address, and nothing else. R100, R163: with waits
left open, or with a crown load of the hart in flight, the store is posted. R99: the address checks of each store, and
what a finding of its translation does. R397: a store to a remote page completes with its request sent. R164: a release
store, once every crown-agent access before it has been performed and no store to another package has failed, writes the
low bytes of its data register, and nothing else, when it is executed or in the event that ends its wait. -/
def Obligations.StoreResults : Prop :=
  (
  ∀ (s : State) (b a : BitVec 5) (i : BitVec 10), s.hart.stores = [] → s.unhindered 4 [b, a] →
    let ea := BitVec.ofInt 64 ((s.x a).toInt + i.toInt)
    let stores := fun (i : Instr) (n : Nat) =>
      (s.lag = false → s.hart.loading = false → Stores i s false 4 ea n (s.x b)) ∧
      (s.lag = true ∨ s.hart.loading = true → Posted i s 4 ea n (s.x b)) ∧
      (s.hart.loading = false → StoresAway i s 4 ea n (s.x b)) ∧
      (s.hart.convoys = [] → ChecksAddress i s ea n ∧ FaultsAway i s ⟨false, true, false⟩ 2 ea n)
    stores (.stB b a i) 1 ∧ stores (.stH b a i) 2 ∧ stores (.stW b a i) 4 ∧ stores (.stD b a i) 8) ∧
  (
  ∀ (s : State) (b a : BitVec 5) (sc : BitVec 4), s.hart.stores = [] → s.unhindered 4 [b, a] →
    s.hart.convoys = [] → s.storesAway = false → s.hart.failedStore = none →
    let stores := fun (i : Instr) (n : Nat) =>
      (∀ ends, s.performs i .releaseStorePerform ends → StoresBy ends s true 4 (s.x a) n (s.x b)) ∧
      (s.lag = false → ChecksAddress i s (s.x a) n)
    stores (.stRelW b a sc) 4 ∧ stores (.stRelD b a sc) 8)

/-- R107: the relaxed atomics. R165: the acquire-release atomics have the effect of R107 once their release may proceed.
R99: their address checks, and what a finding of their translation does. R107, R397: of a remote page only add, swap and
compare-and-swap. Each completes when it is executed, or in the event that ends its wait (R325). That the fault
record of an atomic has the bits of a read, a write and an atomic together is the model's choice (assumption log 79). -/
def Obligations.AtomicResults : Prop :=
  (
  ∀ (s : State) (w : BitVec 1) (d b a : BitVec 5) (sc : BitVec 4), s.hart.stores = [] →
    s.unhindered 4 [d, b, a] → s.hart.loading = false →
    let n := if w = 0 then 4 else 8
    let does := fun (i : Instr) (op : Nat) =>
      (∀ ends, s.performs i .nearMemoryAtomic ends →
        AtomicallyBy ends s d (s.x a) n (signExtended (8 * n)) fun old => amoResult op (8 * n) old (s.x b) (s.x d)) ∧
        (s.lag = false → s.hart.convoys = [] → AtomicAway i s w d b a op ∧ ChecksAddress i s (s.x a) n ∧
          FaultsAway i s ⟨true, true, false⟩ 11 (s.x a) n)
    does (.amoadd w d b a sc) 0 ∧ does (.amoand w d b a sc) 1 ∧ does (.amoor w d b a sc) 2 ∧
    does (.amoxor w d b a sc) 3 ∧ does (.amomin w d b a sc) 4 ∧ does (.amomax w d b a sc) 5 ∧
    does (.amoswap w d b a sc) 6 ∧ does (.amocas w d b a sc) 7) ∧
  (
  ∀ (s : State) (w : BitVec 1) (d b a : BitVec 5) (sc : BitVec 4), s.hart.stores = [] →
    s.unhindered 4 [d, b, a] → s.hart.convoys = [] → s.storesAway = false → s.hart.failedStore = none →
    let n := if w = 0 then 4 else 8
    let does := fun (i : Instr) (op : Nat) =>
      (∀ ends, s.performs i .nearMemoryAtomic ends →
        AtomicallyBy ends s d (s.x a) n (signExtended (8 * n)) fun old => amoResult op (8 * n) old (s.x b) (s.x d)) ∧
        (s.lag = false → AtomicAway i s w d b a op ∧ ChecksAddress i s (s.x a) n)
    does (.amoaddAcqrel w d b a sc) 0 ∧ does (.amoandAcqrel w d b a sc) 1 ∧ does (.amoorAcqrel w d b a sc) 2 ∧
    does (.amoxorAcqrel w d b a sc) 3 ∧ does (.amominAcqrel w d b a sc) 4 ∧ does (.amomaxAcqrel w d b a sc) 5 ∧
    does (.amoswapAcqrel w d b a sc) 6 ∧ does (.amocasAcqrel w d b a sc) 7)

/-! ## Fences (R164, R166 to R168) -/

/-- R166, R167: a fence that has nothing left to wait for completes, with the hart's posted stores performed. R164 to
R167: a fence, a release store and an acquire-release atomic wait while a crown convoy before them is in flight;
`fence.all` and `fence.stk` wait for brim convoys too; that `fence.stk` waits for every one, also for those that access
other stacks, is the model's choice (assumption log 33). R366, R399: they wait too while a store of the hart to another
package has no answer, at every scope (assumption log 92). R168: `icsync` drops the instruction-cache blocks of every
core in its scope, all of them and not only those that hold the bytes (assumption log 10), with the hart's stores
performed, so that the next fetch reads memory; from pod scope on it tells the other packages. Each completes when it is executed, or
in the event that ends its wait. -/
def Obligations.FencesComplete : Prop :=
  (
  ∀ (s : State) (sc n : BitVec 4), s.performStores.unhindered 4 [] → s.hart.convoys = [] →
    s.hart.brimConvoys = [] → s.storesAway = false → s.brimAway = false → s.hart.failedStore = none →
    ∀ i ∈ [Instr.fenceSv sc, .fenceVs sc, .fenceVv sc, .fenceAll sc, .fenceStk n], ∀ ends, s.performs i .fenceDone ends →
      CompletesBy ends s s.performStores 4) ∧
  (
  ∀ (s : State) (sc n : BitVec 4) (w : BitVec 1) (d b a : BitVec 5), s.hart.busyX [d, b, a] = false →
    (s.hart.convoys ≠ [] ∨ s.storesAway = true ∨ s.lag = true →
      Waits (.fenceSv sc) s ∧ Waits (.fenceVs sc) s ∧ Waits (.fenceVv sc) s ∧ Waits (.stRelW b a sc) s ∧ Waits (.stRelD b a sc) s ∧
      Waits (.amoaddAcqrel w d b a sc) s ∧ Waits (.amoandAcqrel w d b a sc) s ∧ Waits (.amoorAcqrel w d b a sc) s ∧
      Waits (.amoxorAcqrel w d b a sc) s ∧ Waits (.amominAcqrel w d b a sc) s ∧ Waits (.amomaxAcqrel w d b a sc) s ∧
      Waits (.amoswapAcqrel w d b a sc) s ∧ Waits (.amocasAcqrel w d b a sc) s) ∧
    (s.hart.convoys ≠ [] ∨ s.hart.brimConvoys ≠ [] ∨ s.storesAway = true ∨ s.brimAway = true ∨ s.lag = true →
      Waits (.fenceAll sc) s ∧ Waits (.fenceStk n) s)) ∧
  (
  ∀ (s : State) (sc : BitVec 4) (ends : State → Prop), s.performs (.icsync sc) .icsyncDone ends → s.hart.loading = false →
    s.storesAway = false → s.performStores.unhindered 4 [] →
    ∃ t, ends t ∧ s.performStores.fellThrough t 4 ∧ t.mem = s.performStores.mem ∧
      (∀ r, t.x r = s.x r) ∧ t.plat.sent = s.plat.sent ++ (if 8 ≤ sc.toNat then [.podIcsync] else []) ∧
      ∀ k : Fin 128, (t.cores[k]).icache =
        if (sc.toNat ≤ 1 ∧ k.val = s.hart.id.toNat / 4) ∨ (sc.toNat = 2 ∧ k.val / 4 = s.hart.id.toNat / 16) ∨
            (sc.toNat = 3 ∧ k.val / 32 = s.hart.id.toNat / 128) ∨ 4 ≤ sc.toNat then []
        else (s.cores[k]).icache)

/-! ## Branches, jumps and hardware loops (R101 to R105, R75, R46) -/

/-- R101: each branch, with its condition and its target. -/
def Obligations.BranchResults : Prop :=
  ∀ (s : State) (a b : BitVec 5) (i : BitVec 11), s.unhindered 4 [a, b] →
    let T := BitVec.ofInt 64 (s.hart.pc.toNat + 2 * i.toInt)
    Branches (.beq a b i) s 4 (s.x a = s.x b) T ∧
    Branches (.bne a b i) s 4 (s.x a ≠ s.x b) T ∧
    Branches (.blt a b i) s 4 ((s.x a).toInt < (s.x b).toInt) T ∧
    Branches (.bge a b i) s 4 ((s.x b).toInt ≤ (s.x a).toInt) T ∧
    Branches (.bltn a b i) s 4 ((s.x a).toNat < (s.x b).toNat) T ∧
    Branches (.bgen a b i) s 4 ((s.x b).toNat ≤ (s.x a).toNat) T ∧
    Branches (.bbs a b i) s 4 ((s.x a).getLsbD ((s.x b).toNat % 64) = true) T ∧
    Branches (.bbc a b i) s 4 ((s.x a).getLsbD ((s.x b).toNat % 64) = false) T
/-- R102: `jal` and `jalr` link the next address and go to their target. R46: the compressed branches and jumps. -/
def Obligations.JumpResults : Prop :=
  (
  ∀ (s : State) (d a : BitVec 5) (i18 : BitVec 18) (i13 : BitVec 13), s.hart.busyX [d, a] = false →
    (let T := BitVec.ofInt 64 (s.hart.pc.toNat + 2 * i18.toInt)
     s.convoyStart T = true → GoesTo (.jal d i18) s T d (s.hart.pc + 4)) ∧
    (let T := BitVec.ofInt 64 ((s.x a).toNat + i13.toInt)
     T.getLsbD 0 = false → s.convoyStart T = true → GoesTo (.jalr d a i13) s T d (s.hart.pc + 4))) ∧
  (
  ∀ (s : State) (a : BitVec 3) (r ra : BitVec 5) (i9 : BitVec 9) (i13 : BitVec 13), ra.toNat = 1 + a.toNat →
    (s.unhindered 2 [ra] →
      Branches (.cBeqz a i9) s 2 (s.x ra = 0) (BitVec.ofInt 64 (s.hart.pc.toNat + 2 * i9.toInt)) ∧
      Branches (.cBnez a i9) s 2 (s.x ra ≠ 0) (BitVec.ofInt 64 (s.hart.pc.toNat + 2 * i9.toInt))) ∧
    (s.hart.busyX [0, r] = false → s.hart.busyX [31, r] = false →
      (let T := BitVec.ofInt 64 (s.hart.pc.toNat + 2 * i13.toInt)
       s.convoyStart T = true → GoesTo (.cJ i13) s T 0 0) ∧
      ((s.x r).getLsbD 0 = false → s.convoyStart (s.x r) = true →
        GoesTo (.cJr r) s (s.x r) 0 0 ∧ GoesTo (.cJalr r) s (s.x r) 31 (s.hart.pc + 2)) ∧
      ((s.x 31).getLsbD 0 = false → s.convoyStart (s.x 31) = true → GoesTo .cRet s (s.x 31) 0 0)))

/-- R102, R75: a jump to an odd address raises MISALIGN before anything else, and a taken transfer to what is no convoy
start raises CONVOY, each with the target as TVAL and no register written: every branch and every jump, the compressed
ones among them. That a page which is invalid at the four bytes before the target stalls the transferring instruction for
replay, with no register written, is the model's choice (assumption log 106). -/
def Obligations.TransferTraps : Prop :=
  (
  ∀ (s : State) (d a b : BitVec 5) (i11 : BitVec 11) (i18 : BitVec 18) (i13 : BitVec 13), s.hart.convoys = [] →
    s.hart.busyX [d, a, b] = false →
    (let T := BitVec.ofInt 64 ((s.x a).toNat + i13.toInt)
     (T.getLsbD 0 = true → Traps (.jalr d a i13) s .misalign T) ∧
     (T.getLsbD 0 = false → s.midConvoy T = true → Traps (.jalr d a i13) s .convoy T) ∧
     (∀ f, T.getLsbD 0 = false → s.startCheck T = .held (.stall f) →
       exec (.jalr d a i13) s = .next (s.stall (.hart s.hart.id) f))) ∧
    (let T := BitVec.ofInt 64 (s.hart.pc.toNat + 2 * i18.toInt)
     (s.midConvoy T = true → Traps (.jal d i18) s .convoy T) ∧
     ∀ f, s.startCheck T = .held (.stall f) → exec (.jal d i18) s = .next (s.stall (.hart s.hart.id) f)) ∧
    (let T := BitVec.ofInt 64 (s.hart.pc.toNat + 2 * i11.toInt)
     let bit := (s.x a).getLsbD ((s.x b).toNat % 64)
     s.midConvoy T = true →
      (s.x a = s.x b → Traps (.beq a b i11) s .convoy T) ∧ (s.x a ≠ s.x b → Traps (.bne a b i11) s .convoy T) ∧
      ((s.x a).toInt < (s.x b).toInt → Traps (.blt a b i11) s .convoy T) ∧
      ((s.x b).toInt ≤ (s.x a).toInt → Traps (.bge a b i11) s .convoy T) ∧
      ((s.x a).toNat < (s.x b).toNat → Traps (.bltn a b i11) s .convoy T) ∧
      ((s.x b).toNat ≤ (s.x a).toNat → Traps (.bgen a b i11) s .convoy T) ∧
      (bit = true → Traps (.bbs a b i11) s .convoy T) ∧ (bit = false → Traps (.bbc a b i11) s .convoy T))) ∧
  (
  ∀ (s : State) (a : BitVec 3) (r ra : BitVec 5) (i9 : BitVec 9) (i13 : BitVec 13), ra.toNat = 1 + a.toNat →
    s.hart.convoys = [] → s.hart.busyX [0, ra, r, 31] = false →
    (let T := BitVec.ofInt 64 (s.hart.pc.toNat + 2 * i13.toInt)
     s.midConvoy T = true → Traps (.cJ i13) s .convoy T) ∧
    (let T := BitVec.ofInt 64 (s.hart.pc.toNat + 2 * i9.toInt)
     s.midConvoy T = true →
      (s.x ra = 0 → Traps (.cBeqz a i9) s .convoy T) ∧ (s.x ra ≠ 0 → Traps (.cBnez a i9) s .convoy T)) ∧
    (let stops := fun (i : Instr) (T : Word) =>
       (T.getLsbD 0 = true → Traps i s .misalign T) ∧
       (T.getLsbD 0 = false → s.midConvoy T = true → Traps i s .convoy T)
     stops (.cJr r) (s.x r) ∧ stops (.cJalr r) (s.x r) ∧ stops .cRet (s.x 31)))
/-- R103: what `loop` sets, and where it goes on: at the body, or after it when the count is 0; R104 applies to that
next address with the loop registers it has set. R103: `loop` raises LOOP when its level is active, or when it nests
improperly in the active other level, and then CONVOY where its body ends at what is no convoy start. -/
def Obligations.LoopStarts : Prop :=
  (
  ∀ (s : State) (k : BitVec 1) (a : BitVec 5) (i : BitVec 13) (l o : Fin 2), l.val = k.toNat → o.val = 1 - k.toNat →
    let c := s.hart.csr
    let start := s.hart.pc + 4
    let stop := BitVec.ofNat 64 (s.hart.pc.toNat + 2 * i.toNat)
    let n := s.x a
    let c1 := { c with lstart := c.lstart.set l start, lend := c.lend.set l stop, lcnt := c.lcnt.set l n }
    let next := if n = 0 then stop else start
    s.hart.busyX [a] = false → c.lcnt[l] = 0 →
    (c.lcnt[o] = 0 ∨ c.lstart[o].toNat ≤ start.toNat ∧ stop.toNat ≤ c.lend[o].toNat) → s.convoyStart stop = true →
    (s.onCsr fun _ => c1).edge s.hart.pc next = .start →
    exec (.loop k a i) s = .next { s with hart := { s.hart with
      pc := (c1.fallThrough s.hart.pc next).1, csr := (c1.fallThrough s.hart.pc next).2, reissue := 0 } }) ∧
  (
  ∀ (s : State) (k : BitVec 1) (a : BitVec 5) (i : BitVec 13) (l o : Fin 2), l.val = k.toNat → o.val = 1 - k.toNat →
    let c := s.hart.csr
    let start := s.hart.pc + 4
    let stop := BitVec.ofNat 64 (s.hart.pc.toNat + 2 * i.toNat)
    s.hart.convoys = [] → s.hart.busyX [a] = false →
    (c.lcnt[l] ≠ 0 → Traps (.loop k a i) s .loop (BitVec.ofNat 64 k.toNat)) ∧
    (c.lcnt[l] = 0 → c.lcnt[o] ≠ 0 → ¬(c.lstart[o].toNat ≤ start.toNat ∧ stop.toNat ≤ c.lend[o].toNat) →
      Traps (.loop k a i) s .loop (BitVec.ofNat 64 k.toNat)) ∧
    (c.lcnt[l] = 0 → (c.lcnt[o] = 0 ∨ c.lstart[o].toNat ≤ start.toNat ∧ stop.toNat ≤ c.lend[o].toNat) →
      s.midConvoy stop = true → Traps (.loop k a i) s .convoy stop))

/-- R104: falling through from `a` to `next`. With no level active the pc is `next`; with level `k` alone active and its
body left there, its count falls by one, and the pc is its start while the count is not 0; with both bodies left there,
the outer level counts once the inner one is done. R105: a taken transfer from `a` to `t` cancels exactly the active
levels whose body holds `a` and not `t`. -/
def Obligations.LoopBackEdges : Prop :=
  (
  ∀ (c : Csrs) (a next : Word) (k o : Fin 2), k ≠ o →
    let leaves := fun j : Fin 2 =>
      c.lcnt[j] ≠ 0 ∧ c.lstart[j].toNat ≤ a.toNat ∧ a.toNat < c.lend[j].toNat ∧ next = c.lend[j]
    (¬leaves k ∧ ¬leaves o → c.fallThrough a next = (next, c)) ∧
    (leaves k ∧ ¬leaves o →
      c.fallThrough a next =
        (if c.lcnt[k] = 1 then next else c.lstart[k], { c with lcnt := c.lcnt.set k (c.lcnt[k] - 1) })) ∧
    (leaves k ∧ leaves o ∧ (c.lstart[o].toNat < c.lstart[k].toNat ∨ c.lstart[o] = c.lstart[k] ∧ k = 1) →
      c.fallThrough a next =
        (if c.lcnt[k] ≠ 1 then (c.lstart[k], { c with lcnt := c.lcnt.set k (c.lcnt[k] - 1) })
         else
          (if c.lcnt[o] = 1 then next else c.lstart[o],
            { c with lcnt := (c.lcnt.set k 0).set o (c.lcnt[o] - 1) })))) ∧
  (
  ∀ (c : Csrs) (a t : Word) (k : Fin 2),
    ((c.cancel a t).lcnt[k] =
      if c.lcnt[k] ≠ 0 ∧ (c.lstart[k].toNat ≤ a.toNat ∧ a.toNat < c.lend[k].toNat) ∧
          ¬(c.lstart[k].toNat ≤ t.toNat ∧ t.toNat < c.lend[k].toNat) then 0 else c.lcnt[k]) ∧
    c.cancel a t = { c with lcnt := (c.cancel a t).lcnt })

/-! ## Traps, system instructions and CSRs (R43, R68 to R71, R106, R111 to R117, R170, R326) -/

/-- R170: trap entry. A cause that TDELEG delegates, met in user mode with STATUS.UT = 0, fills the user trap registers,
sets UT and goes to UTVEC in user mode; every other trap saves the mode in STATUS.PM, fills the supervisor trap
registers and goes to TVEC in supervisor mode. No other register changes. -/
def Obligations.TrapEntrySavesAndVectors : Prop :=
  ∀ (h : Hart) (t : TrapInfo),
    let n := t.cause.code
    let e := h.enter t
    let delegated := h.mode = .user ∧ h.csr.tdeleg.getLsbD n = true ∧ h.csr.status.getLsbD 1 = false
    (delegated →
      e.csr.uepc = t.epc ∧ e.csr.ucause = BitVec.ofNat 64 n ∧ e.csr.utval = t.val ∧ e.csr.utgrp = t.grp.setWidth 64 ∧
      e.csr.ufei = t.fei.setWidth 64 ∧ e.csr.status = h.csr.status ||| 2 ∧ e.pc = h.csr.utvec ∧ e.mode = .user ∧
      e.csr = { h.csr with uepc := e.csr.uepc, ucause := e.csr.ucause, utval := e.csr.utval, utgrp := e.csr.utgrp
                           ufei := e.csr.ufei, status := e.csr.status }) ∧
    (¬delegated →
      e.csr.tepc = t.epc ∧ e.csr.tcause = BitVec.ofNat 64 n ∧ e.csr.tval = t.val ∧ e.csr.tgrp = t.grp.setWidth 64 ∧
      e.csr.fei = t.fei.setWidth 64 ∧
      e.csr.status = (h.csr.status &&& ~~~1) ||| (match h.mode with | .user => 0 | .supervisor => 1) ∧
      e.pc = h.csr.tvec ∧ e.mode = .supervisor ∧
      e.csr = { h.csr with tepc := e.csr.tepc, tcause := e.csr.tcause, tval := e.csr.tval, tgrp := e.csr.tgrp
                           fei := e.csr.fei, status := e.csr.status }) ∧
    e = { h with csr := e.csr, mode := e.mode, pc := e.pc, wait := none, sleep := none, reissue := 0 }
/-- R114: `ecall`, `ebreak` and `c.ebreak` complete, the hardware loops counted, and then trap: the trap records the
next address and, as TVAL, the instruction's own. R116: `pause` changes nothing but that the hart is withdrawn from
issue selection. -/
def Obligations.CallsAndBreakpoints : Prop :=
  (
  ∀ (s : State), s.hart.convoys = [] →
    let after := fun (len : Nat) (c : Cause) =>
      let f := s.hart.csr.fallThrough s.hart.pc (s.hart.pc + BitVec.ofNat 64 len)
      ({ s with hart := { s.hart with csr := f.2 } }).trap ⟨c, f.1, s.hart.pc, 0, 0xFFFFFFFF⟩
    (s.edge s.hart.pc (s.nextPc 4) = .start →
      (s.hart.mode = .user → exec .ecall s = .next (after 4 .ecallU)) ∧
      (s.hart.mode = .supervisor → exec .ecall s = .next (after 4 .ecallS)) ∧
      exec .ebreak s = .next (after 4 .break)) ∧
    (s.edge s.hart.pc (s.nextPc 2) = .start → exec .cEbreak s = .next (after 2 .break))) ∧
  (
  ∀ (s : State), s.unhindered 4 [] → Completes .pause s { s with hart := { s.hart with paused := true } } 4)
/-- R115, R170: `eret` restores the mode that STATUS.PM holds and goes on at TEPC; `uret` clears STATUS.UT and goes on
at UEPC in the same mode; the convoy there issues from group TGRP or UTGRP. That `eret` checks the convoy start under the mode
that it restores is the model's choice (assumption log 35). -/
def Obligations.ReturnsFromTraps : Prop :=
  ∀ (s : State),
    (let m : Mode := if s.hart.csr.status.getLsbD 0 then .supervisor else .user
     s.hart.mode = .supervisor → ({ s with hart := { s.hart with mode := m } }).convoyStart s.hart.csr.tepc = true →
      exec .eret s = .next { s with hart := { s.hart with
        mode := m, pc := s.hart.csr.tepc, reissue := s.hart.csr.tgrp.extractLsb' 0 6 } }) ∧
    (s.hart.mode = .user → s.convoyStart s.hart.csr.uepc = true →
      exec .uret s = .next { s with hart := { s.hart with
        csr := { s.hart.csr with status := s.hart.csr.status &&& ~~~2 }
        pc := s.hart.csr.uepc, reissue := s.hart.csr.utgrp.extractLsb' 0 6 } })
/-- R43, R112, R115: in user mode `eret`, `pmig` and every access to a supervisor, core or package CSR raise ILLEGAL,
and in supervisor mode `uret` does; a return to what is no convoy start raises CONVOY at its own address. For
`eret` that start is checked under the mode that it would restore, which is the model's choice (assumption log 35). -/
def Obligations.PrivilegeTraps : Prop :=
  ∀ (s : State) (d a b : BitVec 5) (csr : BitVec 11), s.hart.convoys = [] →
    (s.hart.mode = .user →
      Traps .eret s .illegal s.hart.pc ∧ Traps (.pmig a b) s .illegal s.hart.pc ∧
      (0x080 ≤ csr.toNat →
        Traps (.csrr d csr) s .illegal s.hart.pc ∧ Traps (.csrw d csr a) s .illegal s.hart.pc ∧
        Traps (.csrs d csr a) s .illegal s.hart.pc ∧ Traps (.csrc d csr a) s .illegal s.hart.pc) ∧
      (s.midConvoy s.hart.csr.uepc = true → Traps .uret s .convoy s.hart.csr.uepc)) ∧
    (s.hart.mode = .supervisor →
      Traps .uret s .illegal s.hart.pc ∧
      (({ s with hart := { s.hart with mode := s.hart.csr.pm } }).midConvoy s.hart.csr.tepc = true →
        Traps .eret s .convoy s.hart.csr.tepc))

/-- R69, R71, R117: `vcfg` gives the new count and format, FFX and rd the new VMAX; a change of the count zeroes both
vector banks and their poison and completes every progress index; otherwise every register bit is kept. Masks, tiles and
memory are unchanged. It completes when it is executed, or in the event that ends its wait. -/
def Obligations.VcfgReshapes : Prop :=
  ∀ (s : State) (d : BitVec 5) (cnt : BitVec 2) (sew : BitVec 3) (alt : BitVec 1) (c : Count) (e : Elem) (ends : State → Prop),
    Count.ofCode cnt = some c → Elem.ofCode sew alt = some e → s.performs (.vcfg d cnt sew alt) .vcfgReshape ends →
    s.unhindered 4 [d] →
    s.hart.still = true → s.hart.queue = [] →
    let vmax := BitVec.ofNat 64 (8 * (65536 / c.regs) / e.width)
    ∃ t, ends t ∧ s.wroteX t d vmax ∧ s.fellThrough t 4 ∧
      t.hart.count = c ∧ t.hart.elem = e ∧ t.hart.csr.ffx = vmax ∧ s.sameMemory t ∧
      (c = s.hart.count →
        t.hart.v = s.hart.v ∧ t.hart.brim = s.hart.brim ∧ t.hart.brimPoison = s.hart.brimPoison ∧
        t.hart.progress = s.hart.progress) ∧
      (c ≠ s.hart.count →
        (∀ g : Fin 256, t.hart.v[g] = 0 ∧ t.hart.brim[g] = 0 ∧ t.hart.brimPoison[g] = 0) ∧
        ∀ r : Fin 64, (t.hart.progress[r]).toNat = 256 / c.regs) ∧
      t.hart.m = s.hart.m ∧ t.hart.tile = s.hart.tile ∧ t.hart.csr.mshp = s.hart.csr.mshp ∧
      t.hart.csr.bsum = s.hart.csr.bsum ∧ t.hart.csr.fpctl = s.hart.csr.fpctl
/-- R326: `bsync`, once the hart's brim convoys have completed, raises BRIM while BSUM holds an error, and else moves
the flags that the brim agent collected into FPCTL; it completes when it is executed, or in the event that ends its
wait. -/
def Obligations.BsyncCollects : Prop :=
  ∀ (s : State), s.hart.brimConvoys = [] →
    let err := s.hart.csr.bsum &&& 0xE0FFFF
    (err ≠ 0 → s.lag = false → s.hart.convoys = [] → Traps .bsync s .brim s.hart.csr.bsum) ∧
    (err = 0 → s.unhindered 4 [] → ∀ ends, s.performs .bsync .bsyncDone ends →
      ∃ t, ends t ∧ s.fellThrough t 4 ∧
        t.hart.csr.fpctl = s.hart.csr.fpctl ||| (s.hart.brimFlags.setWidth 64 <<< 5) ∧ t.hart.brimFlags = 0 ∧
        (∀ r, t.x r = s.x r) ∧
        ({ s with hart := { s.hart with
            brimFlags := 0, csr := { s.hart.csr with fpctl := t.hart.csr.fpctl } } }).onlyXs t)
/-- R42, R43, R274: bytes at the pc that are no instruction raise ILLEGAL, or CONVOY for a chained move; a fetch that
faults raises ACCESS with the first parcel that faulted, halts a hart that fetches at TVEC in supervisor mode, or
stalls. `t` is the state that the fetch leaves. That a
replayable fault in a fetch at TVEC stalls the hart is the model's choice (assumption log 19). -/
def Obligations.FetchAndDecodeTraps : Prop :=
  ∀ (s t : State), s.hart.convoys = [] →
    (∀ d c, s.fetchInstr s.hart.pc = (.ok d, t) → undecodable s.hart.mode s.hart.count d = some c →
      exec .notAnInstruction s = .next (t.trap ⟨c, s.hart.pc, s.hart.pc, 0, 0xFFFFFFFF⟩)) ∧
    (∀ va, s.fetchInstr s.hart.pc = (.error (.access va), t) →
      exec .instructionFetchFault s = .next
        (if s.hart.mode = .supervisor ∧ s.hart.pc = s.hart.csr.tvec then t.haltHart
         else t.trap ⟨.access, s.hart.pc, va, 0, 0xFFFFFFFF⟩)) ∧
    (∀ f, s.fetchInstr s.hart.pc = (.error (.stall f), t) →
      exec .instructionFetchFault s = .next (t.stall (.hart s.hart.id) f))

/-- R111, R113: `csrr` gives the value that the CSR holds, and a user or supervisor hart CSR but CYC is read with no
other effect. A read with an effect on what it reads is an event of its own where waits are left open. R202, R298, R337,
R364, R382: WSTAT, CERR, FCSTAT, BRSTAT and PWRSTAT give their RC fields and clear them, and nothing else; ACDATA gives four
regions' counters, advances ACSEL.region by 4 and under CLR clears those counters; and STCDATA gives the selected counter,
and under CLR clears it. -/
def Obligations.CsrReads : Prop :=
  ∀ (s : State) (d : BitVec 5) (csr : BitVec 11), csrAllowed s.hart.mode csr = true → s.unhindered 4 [d] →
    let reads := fun (ends : State → Prop) =>
      ∃ t, ends t ∧ s.wroteX t d (s.readCsr csr.toNat) ∧ s.fellThrough t 4 ∧ s.sameMemory t
    (s.lag = false → s.hart.csrReadable csr.toNat = true →
      reads (Executes (.csrr d csr) s) ∧
      (csr.toNat < 0x180 ∧ csr.toNat ≠ 8 → Gives (.csrr d csr) s 4 d (s.readCsr csr.toNat))) ∧
    (∀ p ∈ ([(0x203, .wstatRead), (0x204, .cerrRead), (0x313, .fcstatRead), (0x321, .acdataRead), (0x322, .brstatRead),
        (0x333, .stcdataRead), (0x341, .pwrstatRead)] : List (Nat × (HartId → Instr))), csr.toNat = p.1 →
      ∀ ends, s.performs (.csrr d csr) p.2 ends → reads ends) ∧
    let v := s.readCsr csr.toNat
    let q := s.pkg
    let own := s.cores[s.hart.id.toNat / 4]'(by have := s.hart.id.isLt; omega)
    let core := fun (k : Core) => { s with cores := s.cores.set (s.hart.id.toNat / 4) k (by have := s.hart.id.isLt; omega) }
    let stackAt := fun (k : BitVec 4) => s.stack[k.toNat]'k.isLt
    let stack := fun (k : BitVec 4) (x : Stack) => { s with stack := s.stack.set k.toNat x k.isLt }
    let leaves := fun (e : HartId → Instr) (u : State) => ∀ ends, s.performs (.csrr d csr) e ends → ∃ t, ends t ∧ s.wroteX t d v ∧ u.onlyXs t
    let acs := q.acsel.extractLsb' 32 4
    let region := (q.acsel.extractLsb' 0 20).toNat
    let stc := q.stcsel.extractLsb' 0 4
    let counter := (q.stcsel.extractLsb' 4 3).toNat
    (csr.toNat = 0x203 → v.extractLsb' 24 16 = own.reports ∧ v.extractLsb' 8 16 = own.powergates ∧
      leaves .wstatRead (core { own with reports := 0, powergates := 0 })) ∧
    (csr.toNat = 0x204 → v = own.cerr ∧ leaves .cerrRead (core { own with cerr := own.cerr &&& 0xC0FFFFFFFFFFFFFF })) ∧
    (csr.toNat = 0x313 → v.extractLsb' 48 16 = q.refusals ∧ v.extractLsb' 16 32 = q.preemptions ∧
      leaves .fcstatRead { s with pkg := { q with refusals := 0, preemptions := 0 } }) ∧
    (csr.toNat = 0x321 →
      (∀ i < 4, v.extractLsb' (16 * i) 16 = regionWord (stackAt acs).access ((region + i) % 2 ^ 20)) ∧
      ∀ ends, s.performs (.csrr d csr) .acdataRead ends → ∃ t sel l, ends t ∧ s.wroteX t d v ∧
        (∀ b, sel.getLsbD b = if b < 20 then (BitVec.ofNat 20 (region + 4)).getLsbD b else q.acsel.getLsbD b) ∧
        (∀ r < 2 ^ 20, regionWord l r =
          if q.acsel.getLsbD 63 = true ∧ r ∈ (List.range 4).map (fun i => (region + i) % 2 ^ 20) then 0 else regionWord (stackAt acs).access r) ∧
        ({ stack acs { stackAt acs with access := l } with pkg := { q with acsel := sel } }).onlyXs t) ∧
    (csr.toNat = 0x322 → v.extractLsb' 32 32 = (stackAt acs).deferrals ∧ v.extractLsb' 16 16 = (stackAt acs).ratioChanges ∧
      leaves .brstatRead (stack acs { stackAt acs with deferrals := 0, ratioChanges := 0 })) ∧
    (csr.toNat = 0x333 → v = (if h : counter < 6 then (stackAt stc).counters[counter] else 0) ∧
      leaves .stcdataRead (if q.stcsel.getLsbD 63
        then stack stc { stackAt stc with counters := (stackAt stc).counters.setIfInBounds counter 0 } else s)) ∧
    (csr.toNat = 0x341 → v.extractLsb' 16 12 = q.throttles ∧
      leaves .pwrstatRead { s with pkg := { q with throttles := 0 } })
/-- R111, R112, R9, R106: a write of a plain hart CSR stores the RW bits of xs and zero elsewhere, takes the old value
into rd, and leaves every other hart CSR but the loop counts as it was; `csrs` and `csrc` set and clear the RW bits that
xs names; each completes when it is executed, or in the event that ends its wait. R24, R90, R332: a write that would place a reserved mode in FPCTL.rm leaves rm, and the other fields still
take effect; a write of FFX stores at most VMAX; a write of BSUM clears the error bits that it writes as ones. What a write of a loop
register leaves where it is the last instruction of a body is the model's choice (assumption log 16). -/
def Obligations.CsrWrites : Prop :=
  (
  ∀ (s : State) (d a : BitVec 5) (csr : BitVec 11) (mask : Word), (csr.toNat, mask) ∈ plainCsrs →
    csrAllowed s.hart.mode csr = true → s.unhindered 4 [d, a] → s.hart.still = true →
    let n := csr.toNat
    let old := s.readCsr n
    let does := fun (i : Instr) (new : Word) => ∀ e ∈ [Instr.csrWriteApply, if n = 0x109 then .ptbaseWrite else .registerWrite],
      ∀ ends, s.performs i e ends → ∃ t, ends t ∧ t.readCsr n = new ∧ s.wroteX t d old ∧ s.sameMemory t ∧
        t.hart.pc = (s.hart.csr.fallThrough s.hart.pc (s.nextPc 4)).1 ∧
        ∀ m, m < 0x180 → m ≠ n → m ≠ 0x00A → m ≠ 0x00D → t.readCsr m = s.readCsr m
    does (.csrw d csr a) (s.x a &&& mask) ∧
    (a ≠ 0 → does (.csrs d csr a) ((old ||| s.x a) &&& mask) ∧ does (.csrc d csr a) (old &&& ~~~s.x a &&& mask)) ∧
    (a = 0 → s.lag = false → Gives (.csrs d csr a) s 4 d old ∧ Gives (.csrc d csr a) s 4 d old)) ∧
  (
  ∀ (s : State) (a : BitVec 5), s.unhindered 4 [0, a] → s.hart.still = true →
    let v := s.x a
    let does := fun (csr : BitVec 11) (e : HartId → Instr) (holds : Csrs → Prop) =>
      ∀ ends, s.performs (.csrw 0 csr a) e ends → ∃ t, ends t ∧ s.fellThrough t 4 ∧ (∀ r, t.x r = s.x r) ∧ holds t.hart.csr ∧
        ({ s with hart := { s.hart with csr := { s.hart.csr with
            fpctl := t.hart.csr.fpctl, ffx := t.hart.csr.ffx, bsum := t.hart.csr.bsum } } }).onlyXs t
    let same := fun (c : Csrs) => c.fpctl = s.hart.csr.fpctl
    let sameFfx := fun (c : Csrs) => c.ffx = s.hart.csr.ffx
    let sameSum := fun (c : Csrs) => c.bsum = s.hart.csr.bsum
    does 0x000 .fpctlWrite (fun c => sameFfx c ∧ sameSum c ∧
      c.fpctl = (v &&& 0x3E8) ||| (if (v &&& 7).toNat ≤ 4 then v &&& 7 else s.hart.csr.fpctl &&& 7)) ∧
    does 0x003 .ffxWrite (fun c => same c ∧ sameSum c ∧ c.ffx = BitVec.ofNat 64 (min v.toNat s.hart.vmax)) ∧
    does 0x012 .bsumWrite (fun c => same c ∧ sameFfx c ∧
      ∀ b, let err := decide (b < 16) || decide (b = 21) || decide (b = 22) || decide (b = 23)
        let ofViolation := decide (24 ≤ b ∧ b ≤ 29 ∨ 48 ≤ b)
        c.bsum.getLsbD b = (s.hart.csr.bsum.getLsbD b && !(err && v.getLsbD b) &&
          !(ofViolation && s.hart.csr.bsum.getLsbD 23 && v.getLsbD 23))))

/-! ## Scalar floating point (R22 to R34, R109, R110) -/

/-- R109, R22, R25, R26: the FOP instructions in each of their four formats. A compare tests the values; sign injection
copies bits. R110: the fused operations, rounded once, with exact negations. R24, R25, R28, R30 to R34: what the named
operations are, here and in every vector instruction: the exact value of R18 rounded once, its flags, and the signs of
exact zeros, in every format; and an integer conversion, rounded by rm and clamped. R25, R27 to R30, R32, R33, R109: the
order and equality of two values, the lesser and the greater, the class, and every operation and conversion on infinities
and NaNs. -/
def Obligations.FloatResults : Prop :=
  (
  ∀ (s : State) (f g : BitVec 2) (F G : Elem) (d a b : BitVec 5) (u : BitVec 1), s.unhindered 4 [d, a, b] →
    [Elem.fp16, .bf16, .fp32, .fp64][f.toNat]? = some F → [Elem.fp16, .bf16, .fp32, .fp64][g.toNat]? = some G →
    let A := operand s F a
    let B := operand s F b
    let x := decodeF F A
    let y := decodeF F B
    let rm := (s.hart.csr.fpctl &&& 7).toNat
    let sat := s.hart.csr.fpctl.getLsbD 3
    let one := fun (c : Bool) => if c then 1 else 0
    let unordered := if x = .nan ∨ y = .nan then flagNV else 0
    GivesFloat (.fadd f d a b) s d (fAdd F rm A B) ∧ GivesFloat (.fsub f d a b) s d (fSub F rm A B) ∧
    GivesFloat (.fmul f d a b) s d (fMul F rm A B) ∧ GivesFloat (.fdiv f d a b) s d (fDiv F rm A B) ∧
    GivesFloat (.fsqrt f d a) s d (fSqrt F rm A) ∧
    GivesFloat (.fmin f d a b) s d (fMinmax F false A B) ∧ GivesFloat (.fmax f d a b) s d (fMinmax F true A B) ∧
    GivesFloat (.fsgnj f d a b) s d (A % F.signBit + B / F.signBit * F.signBit, 0) ∧
    GivesFloat (.fsgnjn f d a b) s d (A % F.signBit + (1 - B / F.signBit) * F.signBit, 0) ∧
    GivesFloat (.fsgnjx f d a b) s d (A % F.signBit + (A / F.signBit + B / F.signBit) % 2 * F.signBit, 0) ∧
    GivesFloat (.feq f d a b) s d (one (eqF x y), 0) ∧
    GivesFloat (.flt f d a b) s d (one (ltF x y), unordered) ∧
    GivesFloat (.fle f d a b) s d (one (ltF x y || eqF x y), unordered) ∧
    GivesFloat (.fclass f d a) s d (fClass F A, 0) ∧
    GivesFloat (.fcvtI f u d a) s d (toInteger 64 (u = 0) rm x) ∧
    GivesFloat (.fcvtF f u d a) s d
      (ofInteger F rm sat (if u = 0 then (s.x a).toInt else ((s.x a).toNat : Int))) ∧
    GivesFloat (.fcvtFf f g d a) s d
      (let z := decodeF G (operand s G a)
       if F = G then (if z = .nan then F.nanBits else operand s G a, 0) else toFloat F rm sat z)) ∧
  (
  ∀ (s : State) (f : BitVec 1) (d a b c : BitVec 5), s.unhindered 4 [d, a, b, c] →
    let F : Elem := if f = 0 then .fp32 else .fp64
    let rm := (s.hart.csr.fpctl &&& 7).toNat
    let r := fun (negP negC : Bool) =>
      let x := decodeF F (operand s F a)
      let v := fmaF rm (if negP then x.neg else x) (decodeF F (operand s F b))
        (if negC then (decodeF F (operand s F c)).neg else decodeF F (operand s F c))
      deliver F rm v.2 v.1
    GivesFloat (.fma f d a b c) s d (r false false) ∧ GivesFloat (.fms f d a b c) s d (r false true) ∧
    GivesFloat (.fnma f d a b c) s d (r true true) ∧ GivesFloat (.fnms f d a b c) s d (r true false)) ∧
  (
  ∀ (F : Elem) (rm a b c : Nat) (x y z : Rat), rm ≤ 4 → a < 2 ^ F.width → b < 2 ^ F.width → c < 2 ^ F.width →
    finite F a = some x → finite F b = some y → finite F c = some z →
    let sign := fun (v : Nat) => v / F.signBit
    let zero := fun (n : Nat) (r : Nat × Flags) => r = (n * F.signBit, 0)
    let down := if rm = 2 then 1 else 0
    let fused := fun (negP negC : Bool) =>
      let u := decodeF F a
      let w := decodeF F c
      let v := fmaF rm (if negP then u.neg else u) (decodeF F b) (if negC then w.neg else w)
      deliver F rm v.2 v.1
    let s := fun (n : Bool) => if n then (-1 : ℝ) else 1
    (x + y ≠ 0 → Rounds F rm false (x + y) (fAdd F rm a b)) ∧
    (x + y = 0 → zero (if x = 0 ∧ sign a = sign b then sign a else down) (fAdd F rm a b)) ∧
    (x - y ≠ 0 → Rounds F rm false (x - y) (fSub F rm a b)) ∧
    (x - y = 0 → zero (if x = 0 ∧ sign a ≠ sign b then sign a else down) (fSub F rm a b)) ∧
    (x * y ≠ 0 → Rounds F rm false (x * y) (fMul F rm a b)) ∧
    (x * y = 0 → zero ((sign a + sign b) % 2) (fMul F rm a b)) ∧
    (x ≠ 0 → y ≠ 0 → Rounds F rm false (x / y) (fDiv F rm a b)) ∧
    (x = 0 → y ≠ 0 → zero ((sign a + sign b) % 2) (fDiv F rm a b)) ∧
    (x = 0 → y = 0 → fDiv F rm a b = (F.nanBits, flagNV)) ∧
    (x ≠ 0 → y = 0 → (fDiv F rm a b).2 = flagDZ) ∧
    (0 < x → Rounds F rm false (Real.sqrt x) (fSqrt F rm a)) ∧
    (x = 0 → fSqrt F rm a = (a, 0)) ∧ (x < 0 → fSqrt F rm a = (F.nanBits, flagNV)) ∧
    (∀ negP negC, s negP * (x * y) + s negC * z ≠ 0 →
      Rounds F rm false (s negP * (x * y) + s negC * z) (fused negP negC)) ∧
    (∀ (G : Elem) (sat : Bool), (x ≠ 0 → Rounds G rm sat x (toFloat G rm sat (decodeF F a))) ∧
      (x = 0 → toFloat G rm sat (decodeF F a) = (sign a * G.signBit, 0)) ∧
      ∀ i : Int, (i ≠ 0 → Rounds G rm sat i (ofInteger G rm sat i)) ∧ (i = 0 → ofInteger G rm sat i = (0, 0))) ∧
    (∀ (w : Nat) (isSigned : Bool), 1 < w → w ≤ 64 → Clamps w isSigned rm x (toInteger w isSigned rm (decodeF F a))) ∧
    (∀ negP negC, s negP * (x * y) + s negC * z = 0 →
      let pn := (negative F a ^^ negative F b) ^^ negP
      zero (if x * y = 0 ∧ pn = (negative F c ^^ negC) then (if pn then 1 else 0) else down) (fused negP negC))) ∧
  (
  ∀ (F : Elem) (a b : Nat), a < 2 ^ F.width → b < 2 ^ F.width →
    let less := fun (a b : Nat) => ∃ u v, HasValue F a u ∧ HasValue F b v ∧ u < v
    let same := ∃ u, HasValue F a u ∧ HasValue F b u
    let n := negative F a
    F.nanBits = canonicalNaN F ∧ (decodeF F a = .nan ↔ notNumber F a) ∧
    (ltF (decodeF F a) (decodeF F b) = true ↔ less a b) ∧ (eqF (decodeF F a) (decodeF F b) = true ↔ same) ∧
    (less a b ∨ same ∧ (n = true ∨ negative F b = false) →
      fMinmax F false a b = (a, 0) ∧ fMinmax F false b a = (a, 0) ∧ fMinmax F true a b = (b, 0) ∧ fMinmax F true b a = (b, 0)) ∧
    (∀ mx, notNumber F a → (notNumber F b → fMinmax F mx a b = (canonicalNaN F, 0)) ∧
      (¬notNumber F b → fMinmax F mx a b = (b, 0) ∧ fMinmax F mx b a = (b, 0))) ∧
    (notNumber F a → fClass F a = 256) ∧ (infinite F a → fClass F a = if n then 1 else 128) ∧
    (∀ x, finite F a = some x → fClass F a =
      if x = 0 then (if n then 8 else 16) else if |x| < (2 : Rat) ^ leastExponent F then (if n then 4 else 32)
      else if n then 2 else 64)) ∧
  (
  ∀ (F : Elem) (rm a b c : Nat), rm ≤ 4 → a < 2 ^ F.width → b < 2 ^ F.width → c < 2 ^ F.width →
    let nan := fun (f : Flags) => (canonicalNaN F, f)
    let inf := fun (n : Bool) => ((2 ^ (fields F).2 - 1) * 2 ^ (fields F).1 + (if n then F.signBit else 0), (0 : Flags))
    let n := negative F a
    let k := negative F b
    let number := fun (v : Nat) => ¬notNumber F v
    let fused := fun (negP negC : Bool) =>
      let u := decodeF F a
      let w := decodeF F c
      let v := fmaF rm (if negP then u.neg else u) (decodeF F b) (if negC then w.neg else w)
      deliver F rm v.2 v.1
    (notNumber F a ∨ notNumber F b → fAdd F rm a b = nan 0 ∧ fSub F rm a b = nan 0 ∧ fMul F rm a b = nan 0 ∧ fDiv F rm a b = nan 0) ∧
    (notNumber F a → fSqrt F rm a = nan 0) ∧
    (infinite F a → fSqrt F rm a = (if n then nan flagNV else inf false)) ∧
    (infinite F a → infinite F b →
      fAdd F rm a b = (if n = k then inf n else nan flagNV) ∧ fSub F rm a b = (if n = k then nan flagNV else inf n) ∧
      fMul F rm a b = inf (n ^^ k) ∧ fDiv F rm a b = nan flagNV) ∧
    (∀ y, infinite F a → finite F b = some y →
      fAdd F rm a b = inf n ∧ fAdd F rm b a = inf n ∧ fSub F rm a b = inf n ∧ fSub F rm b a = inf !n ∧
      (let m := if y = 0 then nan flagNV else inf (n ^^ k)
       fMul F rm a b = m ∧ fMul F rm b a = m) ∧
      fDiv F rm a b = inf (n ^^ k) ∧ fDiv F rm b a = (if n ^^ k then F.signBit else 0, 0)) ∧
    (∀ x, finite F a = some x → x ≠ 0 → finite F b = some 0 → (fDiv F rm a b).1 =
      match F with
      | .e4m3 => 0x7F
      | .e2m1 => if n ^^ k then 0xF else 0x7
      | _ => (inf (n ^^ k)).1) ∧
    ∀ negP negC, let q := (n ^^ k) ^^ negP
      let z := negative F c ^^ negC
      let invalid := infinite F a ∧ finite F b = some 0 ∨ finite F a = some 0 ∧ infinite F b
      (invalid → fused negP negC = nan flagNV) ∧
      (¬invalid → notNumber F a ∨ notNumber F b ∨ notNumber F c → fused negP negC = nan 0) ∧
      (¬invalid → infinite F a ∨ infinite F b → number a → number b → number c →
        (infinite F c → q ≠ z → fused negP negC = nan flagNV) ∧ (¬infinite F c ∨ q = z → fused negP negC = inf q)) ∧
      (¬infinite F a → ¬infinite F b → number a → number b → infinite F c → fused negP negC = inf z)) ∧
  (
  ∀ (F : Elem) (rm a : Nat) (sat : Bool), a < 2 ^ F.width →
    let n := negative F a
    (∀ G : Elem, (notNumber F a → toFloat G rm sat (decodeF F a) = (canonicalNaN G, if G = .e2m1 then flagNV else 0)) ∧
      (infinite F a → toFloat G rm sat (decodeF F a) =
        match G with
        | .e4m3 => if sat then (if n then 0xFE else 0x7E, 0) else (0x7F, flagNV)
        | .e2m1 => (if n then 0xF else 0x7, if sat then 0 else flagNV)
        | G => ((2 ^ (fields G).2 - 1) * 2 ^ (fields G).1 + (if n then G.signBit else 0), 0))) ∧
    ∀ (w : Nat) (isSigned : Bool), 1 < w → w ≤ 64 →
      (notNumber F a → toInteger w isSigned rm (decodeF F a) = (0, flagNV)) ∧
      (infinite F a → toInteger w isSigned rm (decodeF F a) =
        (if isSigned then (if n then 2 ^ (w - 1) else 2 ^ (w - 1) - 1) else if n then 0 else 2 ^ w - 1, flagNV)))

/-! ## Masks (R72 to R74, R131 to R135) -/

/-- R133: the whole-register mask instructions. R131: the VWHILE instructions: the sum of xa and the element's number
never wraps. -/
def Obligations.MaskLogicResults : Prop :=
  (
  ∀ (s : State) (d a b : BitVec 5) (g : BitVec 3), d.toNat < 24 → s.maskFree d [] [a, b, g.setWidth 5] →
    let p := s.hart.mask a
    let q := s.hart.mask b
    let mg := s.hart.mask (g.setWidth 5)
    GivesMask (.mand d a b g) s d (p &&& q &&& mg) ∧ GivesMask (.mor d a b g) s d ((p ||| q) &&& mg) ∧
    GivesMask (.mxor d a b g) s d ((p ^^^ q) &&& mg) ∧ GivesMask (.mandn d a b g) s d (p &&& ~~~q &&& mg) ∧
    GivesMask (.mnot d a g) s d (~~~p &&& mg) ∧ GivesMask (.mmov d a g) s d (p &&& mg) ∧
    GivesMask (.mset d g) s d mg ∧ GivesMask (.mclr d g) s d 0 ∧
    (s.hart.still = true →
      ∃ v : Mask, GivesMask (.mff d a g) s d v ∧
        ∀ k < 8192, v.getLsbD k = (p.getLsbD k && mg.getLsbD k &&
          decide (k < if s.hart.elem.width = 4 then s.hart.csr.ffx.toNat / 2
                      else s.hart.csr.ffx.toNat * (s.hart.elem.width / 8))))) ∧
  (
  ∀ (s : State) (m a b : BitVec 5), m.toNat < 24 → s.maskFree m [a, b] [] →
    let gives := fun (i : Instr) (test : Nat → Prop) => ∃ v, MaskOf s.hart.elem.width s.hart.vmax test v ∧ GivesMask i s m v
    gives (.whileLt m a b) (fun i => (s.x a).toInt + i < (s.x b).toInt) ∧
    gives (.whileLe m a b) (fun i => (s.x a).toInt + i ≤ (s.x b).toInt) ∧
    gives (.whileLtn m a b) (fun i => (s.x a).toNat + i < (s.x b).toNat) ∧
    gives (.whileLen m a b) (fun i => (s.x a).toNat + i ≤ (s.x b).toNat))
/-- R134: the element mask instructions. R135: an instruction that would write a mask owned by engine work raises OWNED,
with the mask's number, and writes nothing. -/
def Obligations.MaskElementResults : Prop :=
  (
  ∀ (s : State) (d a x : BitVec 5) (g : BitVec 3), d.toNat < 24 →
    let w := s.hart.elem.width
    let n := s.hart.vmax
    let both := s.hart.mask a &&& s.hart.mask (g.setWidth 5)
    let here := fun (i : Nat) => both.getLsbD (governing w i)
    (s.maskFree d [x] [] →
      (∃ v, GivesMask (.mbset d x) s d v ∧ ∀ k < 8192, v.getLsbD k =
        ((s.hart.mask d).getLsbD k || decide ((s.x x).toNat < n ∧ k = governing w (s.x x).toNat))) ∧
      (∃ v, GivesMask (.mbclr d x) s d v ∧ ∀ k < 8192, v.getLsbD k =
        ((s.hart.mask d).getLsbD k && !decide ((s.x x).toNat < n ∧ k = governing w (s.x x).toNat)))) ∧
    (s.unhindered 4 [d] → s.hart.busyMask [a, g.setWidth 5] = false →
      Gives (.mpop d a g) s 4 d (BitVec.ofNat 64 ((List.range n).countP here)) ∧
      Gives (.mfirst d a g) s 4 d
        (match (List.range n).find? here with
         | some i => BitVec.ofNat 64 i
         | none => BitVec.allOnes 64)) ∧
    (s.maskFree d [] [a, g.setWidth 5] →
      ∃ v, GivesMask (.mbrk d a g) s d v ∧ ∀ k < 8192, v.getLsbD k = (both.getLsbD k &&
        !(match (List.range n).find? here with
          | some i => decide (k = governing w i)
          | none => false)))) ∧
  (
  ∀ (s : State) (d a b : BitVec 5) (g : BitVec 3) (id : Nat), s.hart.convoys = [] → s.hart.brimConvoys = [] →
    s.hart.owner.getD d.toNat none = some id →
    let val := d.setWidth 64
    Traps (.whileLt d a b) s .owned val ∧ Traps (.whileLe d a b) s .owned val ∧ Traps (.whileLtn d a b) s .owned val ∧
    Traps (.whileLen d a b) s .owned val ∧ Traps (.mand d a b g) s .owned val ∧ Traps (.mor d a b g) s .owned val ∧
    Traps (.mxor d a b g) s .owned val ∧ Traps (.mandn d a b g) s .owned val ∧ Traps (.mnot d a g) s .owned val ∧
    Traps (.mmov d a g) s .owned val ∧ Traps (.mff d a g) s .owned val ∧ Traps (.mset d g) s .owned val ∧
    Traps (.mclr d g) s .owned val ∧ Traps (.mbset d a) s .owned val ∧ Traps (.mbclr d a) s .owned val ∧
    Traps (.mbrk d a g) s .owned val)

/-! ## Arrival words, waits and barriers (R193 to R200, R246, R247, R291) -/

/-- R194, R196: `awarm` sets the target and clears the count and the status; `awadd`, once its release may proceed,
contributes k bytes, when it is executed or in the event that ends its wait: the generation advances at most once, and an
overshoot is sticky. -/
def Obligations.ArrivalWordUpdates : Prop :=
  ∀ (s : State) (a b : BitVec 5) (sc : BitVec 4), s.unhindered 4 [a, b] → s.hart.stores = [] →
    let k := (s.x b).extractLsb' 0 32
    UpdatesWord (.awarm a b) s (s.x a) (fun w => ⟨0, k, w.generation, 0⟩) ∧
    (s.hart.convoys = [] → s.storesAway = false → s.hart.failedStore = none →
      ∀ ends, s.performs (.awadd a b sc) .awaddContribution ends → UpdatesWordBy ends s (s.x a) fun w => contributed w k)
/-- R196, R199, R247: a wait completes when the watched value differs from the expected one; else the hart sleeps. -/
def Obligations.WaitsCompleteOrSleep : Prop :=
  ∀ (s : State) (a b : BitVec 5) (sc : BitVec 4), s.hart.busyX [a, b] = false →
    (∀ (l : Nat) (v : State), s.wordReach ⟨true, false, false⟩ (s.x a) 16 16 = (.ok l, v) →
      let e := (s.x b).extractLsb' 0 32
      ((v.arrival l).generation ≠ e → v.unhindered 4 [] → Wakes (.waitGen a b sc) s v) ∧
      ((v.arrival l).generation = e → Sleeps (.waitGen a b sc) s v (.gen (s.x a) e) l)) ∧
    (∀ (l : Nat) (v : State), s.wordReach ⟨true, false, false⟩ (s.x a) 8 8 = (.ok l, v) →
      let old := BitVec.ofNat 64 (valueOf (v.readLoc l 8))
      (old ≠ s.x b → v.unhindered 4 [] → Wakes (.waitNe a b sc) s v) ∧
      (old = s.x b → Sleeps (.waitNe a b sc) s v (.ne (s.x a) (s.x b)) l)) ∧
    ((s.x a).toNat ≤ 7 → s.ownsSlots = true →
      let k := s.slot ((s.x a).setWidth 3)
      let e := (s.x b).extractLsb' 0 32
      k.bad = false → k.failed = false →
      (k.generation ≠ e → s.unhindered 4 [] → Wakes (.cwait a b) s s) ∧
      (k.generation = e → Sleeps (.cwait a b) s s (.slot (s.x a) e) 0))
/-- R246: `carrive` counts one arrival at its slot: the first arrival of a round declares the count, a different count
marks a mismatch, and the arrival that reaches the count advances the generation and opens a new round. A number of a
slot or of harts that is out of range raises BOUND, and slots that the farm does not own raise ACCESS. It completes when it is executed, or in the event that ends its wait. -/
def Obligations.SlotArrivals : Prop :=
  ∀ (s : State) (a b : BitVec 5), s.unhindered 4 [a, b] → s.hart.convoys = [] → s.hart.stores = [] → s.storesAway = false →
    let i := Instr.carrive a b
    let k := s.x a
    let n := s.x b
    let x := s.slot (k.setWidth 3)
    (s.lag = false →
      (7 < k.toNat → Traps i s .bound k) ∧
      (k.toNat ≤ 7 → n = 0 ∨ 16 < n.toNat → Traps i s .bound n) ∧
      (k.toNat ≤ 7 → n ≠ 0 → n.toNat ≤ 16 → s.ownsSlots = false → Traps i s .access k)) ∧
    (k.toNat ≤ 7 → n ≠ 0 → n.toNat ≤ 16 → s.ownsSlots = true → x.bad = false → x.failed = false →
      ∀ ends, s.performs i .carriveArrival ends → ∃ t, ends t ∧ s.fellThrough t 4 ∧ (∀ r, t.x r = s.x r) ∧ s.sameMemory t ∧
        (∀ j : BitVec 3, j ≠ k.setWidth 3 → t.slot j = s.slot j) ∧
        let y := t.slot (k.setWidth 3)
        let declared := if x.declared = 0 then n.setWidth 5 else x.declared
        y.mismatch = (x.mismatch || decide (x.declared ≠ 0 ∧ x.declared ≠ n.setWidth 5)) ∧
        (if x.arrived + 1 = declared then y.generation = x.generation + 1 ∧ y.arrived = 0 ∧ y.declared = 0
         else y.generation = x.generation ∧ y.arrived = x.arrived + 1 ∧ y.declared = declared))
/-- R291: `gbar` arrives once in a round and sleeps; with its round complete it goes on, and in a farm that is neither
RESIDENT nor cluster-placed it raises ACCESS with FARMID. The release of a round advances the barrier generation and
wakes the harts that wait; where every wait ends at once, the last arrival of a round releases it in its own step, and where
waits are left open the release is an event. -/
def Obligations.FarmBarrier : Prop :=
  ∀ (s : State) (f : Farm), s.farmOf s.hart = some f → s.hart.convoys = [] → s.hart.stores = [] → s.storesAway = false →
    s.unhindered 4 [] →
    (f.record.together = false → Traps .gbar s .access s.hart.csr.farmid) ∧
    (f.record.together = true → s.hart.round ≠ f.barrier → s.hart.round ≤ f.barrier →
      s.lag = true ∨ s.farmAt f.entry = some f ∧ (f.arrived = 0 ∨ f.arrived < f.started - f.retired) → Wakes .gbar s s) ∧
    (f.record.together = true → s.hart.round = f.barrier → s.farmAt f.entry = some f →
      s.ctl.farms.filter (fun g => decide (g.entry = f.entry)) = [f] →
      let completes := s.lag = false ∧ f.started - f.retired ≤ f.arrived + 1
      let g := { f with barrier := f.barrier + 1, arrived := 0 }
      (∃ t, (¬completes → exec .gbar s = .next t) ∧
        (completes → exec .gbar s = .next ((t.onFarm f.entry fun _ => g).wakeGbar g)) ∧
        t.hart.round = f.barrier + 1 ∧ t.hart.sleep.isSome = true ∧ t.hart.pc = s.hart.pc ∧
        (t.farmAt f.entry).map Farm.arrived = some (f.arrived + 1) ∧ (t.farmAt f.entry).map Farm.barrier = some f.barrier ∧
        (∀ r, t.x r = s.x r) ∧ s.sameMemory t) ∧
      (completes → s.hart.live = true → s.parked = [] → s.hart.sleep = none →
        ∃ t, exec .gbar s = .next t ∧ s.fellThrough t 4 ∧ t.hart.round = f.barrier + 1 ∧ t.hart.sleep = none ∧
          t.farmAt f.entry = some g ∧ (∀ r, t.x r = s.x r) ∧ s.sameMemory t)) ∧
    (s.farmAt f.entry = some f → f.arrived ≠ 0 → f.started - f.retired ≤ f.arrived →
      let g := { f with barrier := f.barrier + 1, arrived := 0 }
      exec (.gbarRelease f.entry) s = .next ((s.onFarm f.entry fun _ => g).wakeGbar g))
/-! ## Farms (R281, R288, R289) -/

/-- R288: `farmnext` takes one strip of the farm: the lowest not yet handed out, of the hart's home stack first in an
AFFINE farm, whose other runs follow once its own is used up, or -1 when none is left. R289: `retire` gives the hart's
place up, with its posted stores performed and its registers kept until the next start, and raises BRIM while BSUM holds
an error. Each completes when it is executed, or in the event that ends its wait. -/
def Obligations.StripsAndRetirement : Prop :=
  ∀ (s : State) (d : BitVec 5) (ends : State → Prop),
    (∀ f, s.performs (.farmnext d) .stripHandout ends → s.farmOf s.hart = some f → s.farmAt f.entry = some f →
      s.unhindered 4 [d] →
      (∀ n, f.record.kind ≠ 1 → f.nexts = [n] →
        ∃ t, ends t ∧ s.fellThrough t 4 ∧ s.sameMemory t ∧
          s.wroteX t d (if n < f.record.strips then BitVec.ofNat 64 n else BitVec.allOnes 64) ∧
          (t.farmAt f.entry).map Farm.nexts = some [if n < f.record.strips then n + 1 else n]) ∧
      (let own := f.record.stacks.idxOf (s.hart.id.toNat / 32)
       f.record.kind = 1 → own < f.record.stacks.length → own < f.nexts.length → f.nexts.getD own 0 < f.runEnd own →
        ∃ t, ends t ∧ s.fellThrough t 4 ∧ s.sameMemory t ∧
          s.wroteX t d (BitVec.ofNat 64 (f.nexts.getD own 0)) ∧
          (t.farmAt f.entry).map Farm.nexts = some (f.nexts.set own (f.nexts.getD own 0 + 1))) ∧
      (let own := f.record.stacks.idxOf (s.hart.id.toNat / 32)
       let remains := fun (nexts : List Nat) (n : Nat) => ∃ i < nexts.length, nexts.getD i 0 ≤ n ∧ n < f.runEnd i
       f.record.kind = 1 → f.nexts.length = f.record.stacks.length →
        (∀ i < f.nexts.length, f.record.firstStrips.getD i 0 ≤ f.nexts.getD i 0) →
        (own < f.record.stacks.length → f.runEnd own ≤ f.nexts.getD own 0) →
        (∀ n, remains f.nexts n → (∀ m, remains f.nexts m → n ≤ m) →
          ∃ t nexts, ends t ∧ s.fellThrough t 4 ∧ s.sameMemory t ∧ s.wroteX t d (BitVec.ofNat 64 n) ∧
            (t.farmAt f.entry).map Farm.nexts = some nexts ∧ ∀ m, remains nexts m ↔ remains f.nexts m ∧ m ≠ n) ∧
        ((∀ n, ¬remains f.nexts n) →
          ∃ t, ends t ∧ s.fellThrough t 4 ∧ s.sameMemory t ∧ s.wroteX t d (BitVec.allOnes 64) ∧
            (t.farmAt f.entry).map Farm.nexts = some f.nexts))) ∧
    (let err := s.hart.csr.bsum &&& 0xE0FFFF
     s.hart.still = true → s.hart.queue = [] →
      (err ≠ 0 → s.lag = false → Traps .retire s .brim s.hart.csr.bsum) ∧
      (err = 0 → ∀ f, s.performs .retire .retireLeave ends → s.farmOf s.hart = some f → f.arrived = 0 →
        s.ctl.farms.filter (fun g => decide (g.entry = f.entry)) = [f] →
        ∃ t, ends t ∧ t.hart.live = false ∧ t.hart = s.hart.gone ∧ t.parked = s.parked ∧
          s.performStores.sameMemory t ∧ (t.farmAt f.entry).map Farm.retired = some (f.retired + 1)))
/-- R279, R281, R297: `launch` reads the record and its argument block and hands them to the controller; xd receives the
new FARMID, whose farm stands in the table, or -1 for a malformed record, -2 for a full table, -3 for one that can never
be placed. The launch is handed over when it is executed, or in the event that lets it go on; with waits left open the hart
then waits for the outcome. Stated where no launch is pending at the controller; in which order it answers several is
`FarmsAreServed`. -/
def Obligations.LaunchOutcomes : Prop :=
  ∀ (s s0 s1 : State) (d a : BitVec 5) (p : Piece) (rec : List Byte) (ends : State → Prop),
    s.performs (.launch d a) .launchHandoff ends → s.hart.live = true → s.unhindered 4 [d, a] → s.straight 4 → s.hart.still = true → s.hart.stores = [] → s.storesAway = false → s.brimAway = false →
    s.hart.failedStore = none → s.ctl.launches = [] → s.scalarReach false ⟨true, false, false⟩ false (s.x a) 64 64 = (.ok p, s1) →
    s1.readPiece .scalar ⟨0, 0, 0⟩ p = (.ok (rec, false), s0) →
    let s2 := s0.countPiece p
    let r := FarmRecord.ofBytes rec
    let c := s.hart.csr
    let gives := fun (v : Word) (farms : List Farm) =>
      s.lag = false → ∃ t, ends t ∧ s.wroteX t d v ∧ s.fellThrough t 4 ∧ t.ctl.launches = [] ∧ t.ctl.farms = farms ∧
        t.hart.wait = none ∧ ∃ tag, t.plat.sent = s2.plat.sent ++ (if s2.plat.portUp then [.accept tag v] else [])
    let handsOver := fun (u : State) (record : Option (FarmRecord × List Byte)) =>
      s.lag = true → ends { u with
        ctl := { u.ctl with launches := [⟨some (s.hart.id, d), 0, record, c.ptbase, c.tvec, c.tdeleg, s.hart.mode⟩] }
        hart := { u.hart with wait := some (.launch d a) } }
    (r.malformed = true → gives 0xFFFFFFFFFFFFFFFF s2.ctl.farms ∧ handsOver s2 none) ∧
    (∀ (ps : List Piece) (s3 s4 : State) (block : List Byte), r.malformed = false →
      s2.reachAll .scalar ⟨true, false, false⟩ r.args 128 = (.ok ps, s3) → State.readBlock ps s3 = (.ok (block, false), s4) →
      s4.plat = s2.plat → s4.ctl = s2.ctl → handsOver s4 (some (r, block)) ∧
      let l : Launch := ⟨some (s.hart.id, d), 0, some (r, block), c.ptbase, c.tvec, c.tdeleg, s.hart.mode⟩
      (r.unsatisfiable = true → gives 0xFFFFFFFFFFFFFFFD s2.ctl.farms) ∧
      (r.unsatisfiable = false → s2.ctl.freeEntry = none → gives 0xFFFFFFFFFFFFFFFE s2.ctl.farms) ∧
      (∀ e, r.unsatisfiable = false → s2.ctl.freeEntry = some e →
        let id : Word := BitVec.ofNat 64 (s2.ctl.accepted % 2 ^ 26 * 64 + e.toNat)
        ∃ f, gives id (s2.ctl.farms ++ [f]) ∧ f.farmid = id ∧ f.entry = e ∧ f.record = r ∧ f.block = block ∧
          f.started = 0 ∧ f = l.farm r block e s2.ctl))
/-! ## Engine instructions (R338, R339 to R362, R404) -/

/-- R342, R343, R347: a copy whose checks pass enters the queue of its stack with its rows, its arrival word and its
chunks; in chunk mode its mask reads zero and is owned by it. It does so when it is executed, or in the event that ends
its wait. That a copy whose first byte has no translation enters the queue of the home stack is the model's choice
(assumption log 96). -/
def Obligations.CopiesAreQueued : Prop :=
  ∀ (s v : State) (d a b : BitVec 5), s.engineFree [d, a, b] s.hart.csr.cpaw v → s.hart.badCrown = [] →
    let c := s.hart.csr
    let chunk := c.cpopt.getLsbD 19
    let mk : BitVec 5 := (c.cpopt.extractLsb' 16 3).setWidth 5
    let rows := c.cprows.toNat % 2 ^ 32
    let size := c.cpopt.toNat % 65536
    let idx := fun (r : Nat) => (BitVec.ofNat 32 (s.hart.elemAt false b.toNat 32 r)).toInt
    let dstride := (c.cpstride.extractLsb' 32 32).toInt
    let sstride := (c.cpstride.extractLsb' 0 32).toInt
    let dst := fun (k : Int) => s.x d + BitVec.ofInt 64 k
    let src := fun (k : Int) => s.x a + BitVec.ofInt 64 k
    (chunk = true → s.hart.owner.getD mk.toNat none = none) →
    let does := fun (i : Instr) (isS : Bool) (vi : Option (BitVec 5)) (n k : Nat) (row : Nat → Word × Word) =>
      let total := n * k
      let st := if isS = true ∨ total = 0 then homeOf s.hart.id else s.stackOfAddress (row 0).1
      firstFailure (s.copyChecks isS vi (s.x d) (s.x a) total) = none → s.queueRoom st .copies = true →
      s.operandsFree vi (if chunk then some mk else none) →
      Enqueues i s v st
        (.copy ⟨if total = 0 then [] else (List.range k).map fun r => ((row r).1, (row r).2, n), total, c.cpaw,
          if chunk then some (mk, s.hart.count, s.hart.elem) else none,
          List.replicate (max 1 ((total + 255) / 256)) .todo⟩)
        (if chunk then some mk else none)
    does (.copyL d a b) false none (s.x b).toNat 1 (fun _ => (s.x d, s.x a)) ∧
    does (.copy2d d a b) false none (s.x b).toNat rows (fun r => (dst (dstride * r), src (sstride * r))) ∧
    (b.toNat < s.hart.count.regs →
      does (.copyG d a b) false (some b) size rows (fun r => (dst (r * size), src (idx r * size))) ∧
      does (.copyS d a b) true (some b) size rows (fun r => (dst (idx r * size), src (r * size))))
/-- R351, R358, R361: a walk, a probe and a fill whose checks pass enter their queues; the mask of a probe reads zero
and is owned by it, or is free again at once where nothing is probed and no arrival word is named. R362: `stctl` drops
from every stack's directory the entries that xa names, and nothing else; xa = 2 is for the supervisor alone, and above
2 is out of range. Each completes when it is executed, or in the event that ends its wait. That a walk, a probe and a fill
enter the queue of the hart's home stack, and that the three rows of `stctl`, which share one word, do the same, is the
model's choice (assumption logs 42 and 9). -/
def Obligations.WalksProbesAndFillsAreQueued : Prop :=
  (
  ∀ (s v : State) (m : BitVec 4) (k d a b : BitVec 5) (g : BitVec 3), s.hart.badCrown = [] →
    let st := homeOf s.hart.id
    let c := s.hart.csr
    let md : BitVec 5 := m.setWidth 5
    (s.engineFree [d, a, b] (s.x b) v → firstFailure (s.walkChecks (s.x d) (s.x a) (s.x b)) = none →
      s.queueRoom st .walks = true →
      Enqueues (.embw d a b) s v st
        (.walk ⟨s.x d, (s.x a).toNat, s.x b, List.replicate (max 1 (s.x a).toNat) .todo⟩) none) ∧
    (s.engineFree [a, b] c.staw v → k.toNat < s.hart.count.regs → s.queueRoom st .acts = true →
      firstFailure (s.actChecks k (s.x a) (s.x b)) = none → s.operandsFree (some k) none →
      (m ≠ 0 → s.operandsFree none (some md) → s.hart.owner.getD md.toNat none = none →
        let tiles := s.tilesOf k (s.x a) (s.x b) (BitVec.allOnes 8192)
        (tiles ≠ [] ∨ c.staw ≠ 0 →
          Enqueues (.stprobe m k a b) s v st (.act (c.actJob false md tiles)) (some md)) ∧
        (tiles = [] → c.staw = 0 → ∀ ends, s.performs (.stprobe m k a b) .engineEnqueue ends →
          ∃ t, ends t ∧ v.fellThrough t 4 ∧ (∀ r, t.x r = v.x r) ∧ t.hart.mask md = 0 ∧
            (∀ r, r ≠ md → t.hart.mask r = v.hart.mask r) ∧ ({ v with hart := { v.hart with m := t.hart.m } }).onlyXs t)) ∧
      (let arena := s.pkg.stalimit.toNat * 65536
       arena ≠ 0 → 2 * (c.stsize.toNat % 2 ^ 17) ≤ arena →
        Enqueues (.stfill k a b g) s v st
          (.act (c.actJob true 0 (s.tilesOf k (s.x a) (s.x b) (s.hart.mask (g.setWidth 5))))) none))) ∧
  (
  ∀ (s : State) (a b : BitVec 5), s.hart.busyX [a, b] = false → s.hart.convoys = [] → s.hart.stores = [] →
    s.storesAway = false →
    let asid := s.hart.csr.ptbase.extractLsb' 52 12
    let drops := fun (e : DirEntry) =>
      (s.x a = 0 ∧ e.asid = asid ∧ e.stream = (s.x b).extractLsb' 0 16) ∨ (s.x a = 1 ∧ e.asid = asid) ∨ s.x a = 2
    let does := fun (i : Instr) =>
      (s.lag = false → (2 < (s.x a).toNat → Traps i s .bound (s.x a)) ∧
        (s.x a = 2 → s.hart.mode = .user → Traps i s .access 2)) ∧
      ((s.x a).toNat ≤ 2 → ¬(s.x a = 2 ∧ s.hart.mode = .user) → s.actsDecided = true →
        s.queueRoom (homeOf s.hart.id) .acts = true → s.unhindered 4 [] →
        ∀ ends, s.performs i .stctlDone ends →
        ∃ t, ends t ∧ s.fellThrough t 4 ∧ (∀ r, t.x r = s.x r) ∧ ({ s with stack := t.stack }).onlyXs t ∧
          ∀ k : Fin 16, ∃ p : DirEntry → Bool, (∀ e, p e = true ↔ drops e) ∧
            t.stack[k] = { s.stack[k] with dir := (s.stack[k]).dir.filter fun e => !p e })
    does (.stctlStream a b) ∧ does (.stctlAsid a b) ∧ does (.stctlAll a b))

/-- R404: `cname` registers a name in place of any earlier entry of it; `coll` starts the next collective on a
registered name as work of the package, and counts the name's ordinal. Each completes when it is executed, or in the
event that ends its wait. That each of the three rows of `coll`, which share one word, starts the operation that xa names is
the model's choice (assumption log 9). -/
def Obligations.NamesAndCollectives : Prop :=
  ∀ (s v : State) (n a b : BitVec 5),
    let c := s.hart.csr
    (s.engineFree [n, a, b] 0 v → firstFailure (s.cnameChecks (s.x n) (s.x a) (s.x b)) = none →
      ∀ ends, s.performs (.cname n a b) .engineEnqueue ends → ∃ t, ends t ∧ s.fellThrough t 4 ∧ (∀ r, t.x r = s.x r) ∧ ({ s with names := t.names }).onlyXs t ∧
        t.names = s.names.filter (fun k => decide (k.name ≠ (s.x n).toNat)) ++
          [⟨(s.x n).toNat, s.x a, (s.x b).toNat, c.collopt.extractLsb' 0 4, c.collopt.extractLsb' 8 8, c.ptbase, s.hart.mode, 0⟩]) ∧
    (∀ k : Name, s.engineFree [n, a, b] (s.x b) v → firstFailure (s.collChecks (s.x n) (s.x a) (s.x b)) = none →
      s.collsInFlight < 256 → v.nameOf (s.x n).toNat = some k → v.group k.group ≠ none →
      let does := fun (i : Instr) => ∀ ends, s.performs i .engineEnqueue ends →
        ∃ t, ends t ∧ v.fellThrough t 4 ∧ (∀ r, t.x r = v.x r) ∧
          ({ v with names := t.names, works := t.works, nextWork := v.nextWork + 1 }).onlyXs t ∧
          t.names = v.names.map (fun q => { q with ordinal := if q.name = (s.x n).toNat then q.ordinal + 1 else q.ordinal }) ∧
          t.works = v.works ++ [⟨v.nextWork, homeOf s.hart.id, s.capturedBy, false, none,
            .coll ⟨(s.x n).toNat, k.group, k.ordinal, (s.x a).setWidth 2, k.addr, k.bytes, k.fmt, k.ptbase, k.mode, s.x b,
              List.replicate (k.bytes / 256) none, List.replicate (k.bytes / 256) .todo⟩⟩]
      does (.collAllReduce n a b) ∧ does (.collAllGather n a b) ∧ does (.collReduceScatter n a b))
/-- R338: `pmig` copies the page's bytes to the target frame and gives its leaf the new frame and home stack, with the
other bits kept, drops the page's translations in every page sorter, and zeroes the access counters of the new frame's
regions; a target equal to the frame in force changes nothing. With waits left open the migration begins, and
its end is `pmigCopyDone`. Stated for a hart that runs alone. -/
def Obligations.PagesMigrate : Prop :=
  ∀ (s u : State) (a b : BitVec 5) (leaf : Word) (ea size src dst : Nat), s.hart.mode = .supervisor →
    s.hart.busyX [a, b] = false → s.hart.convoys = [] → s.hart.stores = [] → s.parked = [] → s.straight 4 →
    Memory.wf s.mem = true → s.migrations = [] → canonical (s.x a) = true → inLocal (s.x a) = false →
    s.pmigWalk (s.x a) = (some (leaf, ea, size), u) → u.migratable leaf size = true → u.targetOk (s.x b) size = true →
    u.dramAt (frameOf leaf) = some src → u.dramAt (s.x b).toNat = some dst →
    (∀ k < size, ¬(ea ≤ dst + k ∧ dst + k < ea + 8)) → s.hart.laterals = [] → (∀ w ∈ s.works, w.ending = none) →
    let page := (s.x a).toNat % 2 ^ 57 / 4096 * 4096
    let covers := fun (e : TlbEntry) => decide (e.base.toNat % 2 ^ 57 ≤ page ∧ page < e.base.toNat % 2 ^ 57 + e.size)
    let dropped := fun (t : State) =>
      (∀ c : Fin 128, (t.cores[c]).tlb = (u.cores[c]).tlb.filter fun e => !covers e) ∧
        ∀ c : Fin 16, (t.stack[c]).tlb = (u.stack[c]).tlb.filter fun e => !covers e
    let moved := fun (t : State) => dropped t ∧
      (∀ (k : Fin 16) (r : Nat), r < 2 ^ 20 → regionWord (t.stack[k]).access r =
        if k.val = dst / 2 ^ 36 ∧ dst % 2 ^ 36 / 65536 ≤ r ∧ r ≤ (dst % 2 ^ 36 + size - 1) / 65536 then 0
        else regionWord (u.stack[k]).access r) ∧
      (∀ k < size, readCell t.mem (dst + k) = readCell s.mem (src + k)) ∧
      (∀ k : Nat, ¬(dst ≤ k ∧ k < dst + size) → ¬(ea ≤ k ∧ k < ea + 8) → readCell t.mem k = readCell s.mem k) ∧
      (let entry := BitVec.ofNat 64 (valueOf (t.readLoc ea 8))
       entry.extractLsb' 16 40 = (s.x b).extractLsb' 12 40 ∧ entry.extractLsb' 10 4 = (s.x b).extractLsb' 36 4 ∧
        entry.extractLsb' 0 10 = leaf.extractLsb' 0 10 ∧ entry.extractLsb' 14 2 = leaf.extractLsb' 14 2 ∧
        entry.extractLsb' 56 8 = leaf.extractLsb' 56 8) ∧
      t.migrations = [] ∧ t.hart.wait = none ∧ (∀ r, t.x r = s.x r) ∧ s.fellThrough t 4
    (src = dst → Completes (.pmig a b) s u 4) ∧
    (src ≠ dst → s.lag = false → s.hart.wait = none → ∃ t, exec (.pmig a b) s = .next t ∧ moved t) ∧
    (src ≠ dst → s.lag = true → ∃ t, exec (.pmig a b) s = .next t ∧ t.hart.wait = some (.pmig a b) ∧ s.sameMemory t ∧
      t.migrations.length = 1 ∧ dropped t ∧ ∃ z, exec (.pmigCopyDone s.hart.id) t = .next z ∧ moved z)
/-! ## The matrix engine (R213 to R231) -/

/-- R224 to R228, R43, R218: a matrix instruction of the multiplying kind joins the queue, and where nothing is in flight
and the work runs on at once it gives every element of its rows and columns the sum of its products, and leaves every other
element; `mzero` clears the tile and its poison. The checks of posting raise SHAPE, and an undeclared register ILLEGAL. It
is so whether the instruction is executed, or MATRIX_POST ends its wait. R216, R225 to R228, R38 to R40: which multiplicands
an element has, its exact sum cut to the window and rounded once, and the integer sum. -/
def Obligations.TileResults : Prop :=
  (
  ∀ (s : State) (t : BitVec 1) (va vb vx : BitVec 5) (fa fb : BitVec 4) (neg sat ovw : BitVec 1),
    s.edge s.hart.pc (s.nextPc 8) = .start → s.hart.queue.length < 32 →
    let h := s.hart
    let m := (h.csr.mshp.extractLsb' 0 6).toNat + 1
    let n := (h.csr.mshp.extractLsb' 8 6).toNat + 1
    let old := fun (k r c : Nat) => (h.tile.getD (64 * k + r) 0).extractLsb' (32 * c) 32
    let tileIs := fun (T : Vector Group 128) (new : Nat → Nat → BitVec 32) => ∀ k r c : Nat, k < 2 → r < 64 → c < 64 →
      (T.getD (64 * k + r) 0).extractLsb' (32 * c) 32 = if k = t.toNat then new r c else old k r c
    let queued := fun (ends : State → Prop) (e : MatrixEntry) =>
      s.lag = true → PostsBy ends s fun k => { k with queue := k.queue ++ [e] }
    let settled := s.lag = false ∧ h.still = true ∧ h.queue = [] ∧ h.badCrown = [] ∧ h.badTile = []
    let does := fun (i : Instr) (named xs : List (BitVec 5)) (e : MatrixEntry) (octet : Nat → Option Nat) (skips : Nat) =>
      let ok := named.all fun r => decide (r.toNat < h.count.regs)
      ∀ ends, s.performs i .matrixPost ends → h.busyX xs = false →
        (ok = false → h.convoys = [] → ends (s.trap ⟨.illegal, h.pc, h.pc, 0, 0xFFFFFFFF⟩)) ∧
        (ok = true → e.checked = false → h.convoys = [] → ends (s.trap ⟨.shape, h.pc, h.pc, 0, 0xFFFFFFFF⟩)) ∧
        (ok = true → e.checked = true → queued ends e) ∧
        (ok = true → e.checked = true → settled → ∃ T : Vector Group 128,
          tileIs T (fun r c => match octet r with
            | some o => if c < n then e.element h o r c (old t.toNat r c) else old t.toNat r c
            | none => old t.toNat r c) ∧
          PostsBy ends s fun k => { k with tile := T, csr := { k.csr with mskip := k.csr.mskip + BitVec.ofNat 64 skips } })
    let rows := fun (r : Nat) => if r < m then some vb.toNat else none
    (∀ ends, s.performs (.mzero t) .matrixPost ends → queued ends (h.entry .zero t 0 0 0 0 0 0 0 0 0) ∧
      (settled → ∃ T : Vector Group 128, tileIs T (fun _ _ => 0) ∧
        PostsBy ends s fun k => { k with tile := T, tilePoison := k.tilePoison.set t.toNat none t.isLt })) ∧
    does (.mma t va vb fa fb neg sat ovw) [va, vb] [] (h.entry .mma t va vb 0 fa fb neg sat ovw 0) rows 0 ∧
    does (.mmas t va vb vx fa fb neg sat ovw) [va, vb, vx] [] (h.entry .mmas t va vb vx fa fb neg sat ovw 0) rows 0 ∧
    does (.mmax t va vb vx fa fb neg sat ovw) [va, vb, vx] [] (h.entry .mmax t va vb vx fa fb neg sat ovw 0) rows 0 ∧
    (let counts := fun (k : Nat) => ((s.x vx).extractLsb' (16 * k) 16).toNat
     does (.mmag t va vb vx fa fb neg sat ovw) [va, vb] [vx] (h.entry .mmag t va vb 0 fa fb neg sat ovw (s.x vx))
      (fun r => if r < counts 0 then some vb.toNat
        else if r < counts 0 + counts 1 then some (vb.toNat + 8)
        else if r < counts 0 + counts 1 + counts 2 then some (vb.toNat + 16) else none)
      ((List.range 3).countP fun k => decide (counts k = 0)))) ∧
  (
  ∀ (e : MatrixEntry) (h : Hart) (vb r c : Nat) (old : BitVec 32),
    let out := e.element h vb r c old
    let w := (fmtOf e.fa).width
    let K := 8 * (32 / w)
    let A := fun (k : Nat) => h.elemAt false e.va.toNat w (r * K + k)
    let B := fun (k : Nat) => h.elemAt false (vb + k / (32 / w)) w (c * (32 / w) + k % (32 / w))
    let ks := List.range K
    (∀ F G : Elem, e.int = false → fmtOf e.fa = .flt F → fmtOf e.fb = .flt G → F.width = G.width →
      let is := fun (pairs : List (Nat × Nat × Option Int)) => AccWindow F G e.neg e.sat e.ovw pairs old out
      (e.op = .mma ∨ e.op = .mmag → is (ks.map fun k => (A k, B k, some 0))) ∧
      (e.op = .mmas → is ((List.range (K / 4)).flatMap fun j =>
        let q := r * (K / 4) + j
        let nibble := h.elemAt false e.vx.toNat 4 q
        let kept := fun (z : Nat) => h.elemAt false e.va.toNat w (2 * q + z)
        (if nibble % 4 = nibble / 4 then [] else [(kept 0, B (4 * j + nibble % 4), some 0)]) ++
          [(kept 1, B (4 * j + nibble / 4), some 0)])) ∧
      (e.op = .mmax → is (ks.map fun k =>
        let code := fun (b : Nat) => h.elemAt false e.vx.toNat 8 (b + k / 32)
        (A k, B k, if code (2 * r) = 255 ∨ code (128 + 2 * c) = 255 then none
          else some ((code (2 * r) - 127 : Int) + (code (128 + 2 * c) - 127 : Int)))))) ∧
    (e.int = true → fmtOf e.fa = .int 8 true → fmtOf e.fb = .int 8 true → e.op = .mma ∨ e.op = .mmag →
      let byte := fun (b : Nat) => (BitVec.ofNat 8 b).toInt
      let S := (if e.ovw then 0 else old.toInt) + (ks.map fun k => (if e.neg then -1 else 1) * (byte (A k) * byte (B k))).sum
      out = BitVec.ofInt 32 (if e.sat then max (-2 ^ 31) (min (2 ^ 31 - 1) S) else S)))
/-- R229, R219, R231: `mtv` copies rows of a tile to a register and `mvt` a register to rows of a tile, as they stand;
rows beyond the tile raise SHAPE, and a poisoned tile raises POISON with its origin. With waits left open each joins the
queue, `mtv` with the rows that it has read and with the progress of its register at 0. An entry at the head of the queue
whose earlier convoys have retired runs and leaves the queue, but that an `mtv` writes one row group and leaves with its
last. That a row out of range goes before a poisoned tile is the model's choice (assumption log 22), as is that `mtv`
writes row group by row group (assumption log 95). R223, R230: `mshape` writes MSHP, or raises SHAPE for a bit that MSHP
has not; `msync` completes with the matrix queue empty. -/
def Obligations.TileMoves : Prop :=
  (
  ∀ (s : State) (t : BitVec 1) (va xs : BitVec 5), s.hart.badCrown = [] → s.hart.badTile = [] →
    let h := s.hart
    let g := h.count.groups
    let r := (s.x xs).toNat
    let shape : TrapInfo := ⟨.shape, h.pc, h.pc, 0, 0xFFFFFFFF⟩
    let moves := fun (mtv mvt : State → Prop) =>
      s.performs (.mtv va t xs) .mtvPost mtv ∧ s.performs (.mvt t va xs) .matrixPost mvt
    (∀ mtv mvt, moves mtv mvt → s.unhindered 8 [xs] → h.still = true → va.toNat < h.count.regs →
      (∀ e ∈ h.queue, e.tile ≠ t) → h.queue.length < 32 →
      (64 < r + g → mtv (s.trap shape) ∧ mvt (s.trap shape)) ∧
      (∀ o, r + g ≤ 64 → h.tilePoison[t.toNat]'t.isLt = some o → mtv (s.trap ⟨.poison, h.pc, o.reg, 0, o.elem⟩)) ∧
      (r + g ≤ 64 → s.lag = true →
        (h.tilePoison[t.toNat]'t.isLt = none → PostsBy mtv s fun k => { k with
          queue := k.queue ++ [{ h.entry .mtv t va 0 0 0 0 0 0 0 (s.x xs) with
            rows := (List.range g).map fun i => h.tile.getD (64 * t.toNat + r + i) 0 }]
          progress := k.progress.setIfInBounds va.toNat 0 }) ∧
        PostsBy mvt s fun k => { k with queue := k.queue ++ [h.entry .mvt t va 0 0 0 0 0 0 0 (s.x xs)] }) ∧
      (r + g ≤ 64 → s.lag = false → h.queue = [] →
        (h.tilePoison[t.toNat]'t.isLt = none → ∃ V : Vector Group 256,
          (∀ i : Nat, i < 256 → V.getD i 0 =
            if va.toNat * g ≤ i ∧ i < va.toNat * g + g then h.tile.getD (64 * t.toNat + r + (i - va.toNat * g)) 0
            else h.v.getD i 0) ∧
          PostsBy mtv s fun k =>
            { k with v := V, progress := k.progress.setIfInBounds va.toNat (BitVec.ofNat 6 g) }) ∧
        ∃ T : Vector Group 128,
          (∀ i : Nat, i < 128 → T.getD i 0 =
            if 64 * t.toNat + r ≤ i ∧ i < 64 * t.toNat + r + g then h.v.getD (va.toNat * g + (i - (64 * t.toNat + r))) 0
            else h.tile.getD i 0) ∧
          PostsBy mvt s fun k => { k with tile := T })) ∧
    (∀ e rest, h.live = true → s.spilled h = false → h.queue = e :: rest →
      (∀ c ∈ h.convoys ++ h.brimConvoys, e.order ≤ c.order) →
      (e.op ≠ .mtv → e.rows = [] →
        exec (.matrixEntryComplete h.id) s = .next { s with hart := { e.run h with queue := rest } }) ∧
      (∀ row more, e.op = .mtv → e.rows = row :: more → more.length < e.count.groups →
        let done := e.count.groups - e.rows.length
        exec (.matrixEntryComplete h.id) s = .next { s with hart := { h with
          v := h.v.setIfInBounds (e.va.toNat * e.count.groups + done) row
          progress := if (h.convoys.any fun c => c.dest.contains e.va.toNat) ∨ ∃ k ∈ rest, k.op = .mtv ∧ k.va = e.va then h.progress
            else h.progress.setIfInBounds e.va.toNat (BitVec.ofNat 6 (done + 1))
          queue := if more = [] then rest else { e with rows := more } :: rest } }))) ∧
  (
  ∀ (s : State) (a : BitVec 5),
    (∀ ends, s.performs (.mshape a) .mshapeApply ends → s.hart.still = true → s.hart.busyX [a] = false →
      (s.x a &&& ~~~0x13F3F ≠ 0 → ends (s.trap ⟨.shape, s.hart.pc, s.hart.pc, 0, 0xFFFFFFFF⟩)) ∧
      (s.x a &&& ~~~0x13F3F = 0 → s.unhindered 8 [a] →
        PostsBy ends s fun h => { h with csr := { h.csr with mshp := s.x a } })) ∧
    ∀ ends, s.performs .msync .msyncDone ends → s.hart.queue = [] → s.unhindered 8 [] → PostsBy ends s fun h => h)
/-! ## Accumulation windows (R203 to R207) -/

/-- R205, R207, R209: `vwin` records the window and fills its copy area with the identity of the operation; `vwdrop`
closes the window and touches nothing else. Each counts as a retired convoy: that it does is the model's choice
(assumption log 32). R55, R205: the operation and the identity of each code. R206: `vwred` adds each active value into the
entry that its index names of its lane's copy, in ascending order, and an index out of range in group 0 raises BOUND with
nothing added. R207: `vwmerge` folds the 32 copies into each entry of a table in a scratchpad window, in lane order, and
closes the window. The place of each copy in its area is the model's reading of R203 to R206 (assumption log 11). -/
def Obligations.WindowsOpenAndClose : Prop :=
  (
  ∀ (s : State) (o a b : BitVec 5), s.hart.elem ≠ .e2m1 → s.hart.convoys = [] → s.unhindered 4 [] → Memory.wf s.mem = true →
    let w := s.hart.elem.width / 8
    let done := fun (t : State) => s.fellThrough t 4 ∧ (∀ r, t.x r = s.x r) ∧
      ({ s with
          hart := { s.hart with
            window := t.hart.window, issued := s.hart.issued + 1, csr := { s.hart.csr with cvret := s.hart.csr.cvret + 1 } }
          mem := t.mem, badUnits := t.badUnits, poisoned := t.poisoned, remote := t.remote }).onlyXs t ∧
      ((∀ r ∈ s.remote, r.part < 64) → t.remote = s.remote)
    (∃ t, exec .vwdrop s = .next t ∧ done t ∧ t.hart.window = none ∧ s.sameMemory t) ∧
    (∀ c val, s.windowTrap (s.x a) (s.x b) (s.x 28) = some (c, val) → Traps (.vwin o a b) s c val) ∧
    (s.windowTrap (s.x a) (s.x b) (s.x 28) = none →
      let at_ := scratchBase (s.hart.id.toNat / 4) + (s.x 28).toNat % 2 ^ 32
      let id : Word := BitVec.ofNat 64 (windowIdentity o ⟨s.hart.elem.width, s.hart.elem, (s.hart.csr.fpctl.toNat % 8)⟩)
      ∃ t, exec (.vwin o a b) s = .next t ∧ done t ∧
        t.hart.window = some ⟨s.x a, (s.x b).toNat, o, s.hart.elem, s.x 28, 0⟩ ∧
        (∀ j < 32 * (s.x b).toNat, t.readLoc (at_ + j * w) w = lowBytes id w) ∧
        s.sameMemoryBut t at_ (32 * (s.x b).toNat * w))) ∧
  (
  ∀ (e : Elem) (rm x y : Nat), e ≠ .e2m1 → x < 2 ^ e.width → y < 2 ^ e.width →
    let l : Lane := ⟨e.width, e, rm⟩
    let signed := fun (v : Nat) => (BitVec.ofNat e.width v).toInt
    let sign := 2 ^ (e.width - 1)
    let most := if e = .e4m3 then 0x7E else (2 ^ (fields e).2 - 1) * 2 ^ (fields e).1
    let is := fun (o : BitVec 5) (id : Nat) (r : Nat × Flags) => windowIdentity o l = id ∧ windowOp o l x y = r
    is 0 0 ((x + y) % 2 ^ e.width, 0) ∧ is 1 (sign - 1) (if signed x ≤ signed y then x else y, 0) ∧
      is 2 sign (if signed y ≤ signed x then x else y, 0) ∧ is 3 (2 ^ e.width - 1) (min x y, 0) ∧ is 4 0 (max x y, 0) ∧
      is 8 sign (fAdd e rm x y) ∧ is 9 most (fMinmax e false x y) ∧ is 10 (sign + most) (fMinmax e true x y)) ∧
  (
  ∀ (s : State) (i : Instr) (v : VInfo) (win : Window), s.vectorFree i v → Memory.wf s.mem = true →
    s.hart.window = some win →
    let W := s.hart.elem.width
    let w := W / 8
    let l : Lane := ⟨W, s.hart.elem, (s.hart.csr.fpctl &&& 7).toNat⟩
    let area := scratchBase (s.hart.id.toNat / 4) + win.area.toNat % 2 ^ 32
    let copy := fun (k j : Nat) => area + (k * win.entries + j) * w
    let kept := fun (t : State) => t.hart.v = s.hart.v ∧ t.hart.brim = s.hart.brim
    win.area.toNat % 2 ^ 32 + 32 * win.entries * w ≤ scratchBytes →
    (∀ k < 32, ∀ j < win.entries, s.readFails (copy k j) w = false) →
    (∀ va vb, v.kind = .windowAdd va vb →
      let wx := max W 32
      let total := 8 * (65536 / s.hart.count.regs) / wx
      let q := total / s.hart.count.groups
      let on := fun (k : Nat) => decide (k < total) && s.active v wx k
      let index := fun (k : Nat) => (BitVec.ofNat 32 (s.hart.elemAt false vb.toNat 32 k)).toInt
      let lane := fun (k : Nat) => 32 * (k % q) / q
      let inRange := fun (k : Nat) => 0 ≤ index k ∧ index k < win.entries
      let below := fun (m c : Nat) (j : Int) => (List.range m).foldl
        (fun (u : Nat) k => if on k ∧ lane k = c ∧ index k = j then (windowOp win.op l u (s.elem false va.toNat k)).1 else u)
        (valueOf (s.readLoc (copy c j.toNat) w))
      ((∀ k, on k = true → inRange k) →
        ∃ t, VectorCompletes i s t v ((List.range total).foldl (fun (f : Flags) k =>
            if on k then f ||| (windowOp win.op l (below k (lane k) (index k)) (s.elem false va.toNat k)).2 else f) 0) ∧
          (∀ c < 32, ∀ j < win.entries, valueOf (t.readLoc (copy c j) w) = below total c j % 2 ^ W) ∧
          s.sameMemoryBut t area (32 * win.entries * w) ∧ t.hart.window = some win ∧ kept t) ∧
      (∀ k < q, on k = true → ¬inRange k → (∀ j < k, on j = true → inRange j) →
        ∃ u, exec i s = .next (u.trap ⟨.bound, s.hart.pc, BitVec.ofInt 64 (index k), 0, BitVec.ofNat 32 (governing wx k / w)⟩) ∧
          s.sameMemory u ∧ u.hart.window = some win ∧ kept u ∧ (∀ r, u.x r = s.x r) ∧ u.hart.m = s.hart.m ∧
          u.hart.convoys = [] ∧ u.hart.csr.cvret = s.hart.csr.cvret ∧ u.hart.csr.fpctl = s.hart.csr.fpctl)) ∧
    (∀ table : Nat, v.kind = .windowMerge → win.merged = 0 →
      (∀ j < win.entries,
        let va := win.base + BitVec.ofNat 64 (j * w)
        canonical va = true ∧ inLocal va = true ∧ va.toNat % 256 + w ≤ 256 ∧
          s.localWindow false va w = some (table + j * w) ∧ s.readFails (table + j * w) w = false) →
      (table + win.entries * w ≤ area ∨ area + 32 * win.entries * w ≤ table) →
      let fold := fun (j : Nat) => (List.range 32).foldl (fun (u : Nat × Flags) k =>
        let r := windowOp win.op l u.1 (valueOf (s.readLoc (copy k j) w))
        (r.1, u.2 ||| r.2)) (valueOf (s.readLoc (table + j * w) w), 0)
      ∃ t, VectorCompletes i s t v ((List.range win.entries).foldl (fun (f : Flags) j => f ||| (fold j).2) 0) ∧
        (∀ j < win.entries, valueOf (t.readLoc (table + j * w) w) = (fold j).1 % 2 ^ W) ∧
        s.sameMemoryBut t table (win.entries * w) ∧ t.hart.window = none ∧ kept t))
/-! ## Convoys (R44, R75 to R82, R118 to R126, R169, R316, R317, R329) -/

/-- R75, R78, R80, R169, R316: a vector instruction whose convoy gathers whole and passes its checks issues: the convoy
enters its line with its operands captured, its destinations' progress is 0, and the hart goes on, or waits where the
convoy synchronises; no register, mask or memory byte is written. R83: a crown convoy that issues again after a trap begins
at the group that the return has named. A check that fails raises its trap before any group. A
convoy sent while PV is set is discarded and counted. `z` is the state right after issue. Every vector instruction but
`vwin` and `vwdrop`, which act at issue. That a convoy keeps the mode of its issue is the model's choice (assumption log
24). -/
def Obligations.ConvoysEnterTheirLine : Prop :=
  ∀ (s t : State) (i : Instr) (v : VInfo) (ms : List (Instr × Word)), vinfo i = some v → (∀ o a b, i ≠ .vwin o a b) →
    i ≠ .vwdrop → s.gather i v = (ms, .whole, t) → forwardConflict ms = none → s.hart.convoyBlocked ms = false →
    let next := s.hart.pc + BitVec.ofNat 64 (4 * ms.length)
    let passes := t.issueTrap ms = none ∧ t.edge s.hart.pc next = .start ∧ t.hart.syncTrap ms = none
    (s.hart.convoys = [] → ∀ c val, let trapped := exec i s = .next (t.trap ⟨c, s.hart.pc, val, 0, 0xFFFFFFFF⟩)
      (t.issueTrap ms = some (c, val) → trapped) ∧
      (t.issueTrap ms = none → t.edge s.hart.pc next = .no → c = .convoy → val = t.edgeTarget s.hart.pc next → trapped) ∧
      (t.issueTrap ms = none → t.edge s.hart.pc next = .start → t.hart.syncTrap ms = some (c, val) → trapped)) ∧
    (passes → s.hart.reissue = 0 →
      ∃ (z : State) (c : Convoy), exec i s = .next z.settleWork ∧
        c.members.map (fun m => (m.instr, m.addr)) = ms ∧ c.addr = s.hart.pc ∧ c.next = 0 ∧
        (∀ m ∈ c.members, (∀ r, (scalarFields m.instr).1 = some r → m.sa = s.x r) ∧
          (∀ r, (scalarFields m.instr).2 = some r → m.sb = s.x r)) ∧
        c.rm = s.hart.csr.fpctl.extractLsb' 0 3 ∧ c.sat = s.hart.csr.fpctl.getLsbD 3 ∧ c.mode = s.hart.mode ∧
        (c.brim = true ↔ ∃ m ∈ ms, ∃ w, vinfo m.1 = some w ∧ w.sent = true) ∧
        (c.brim = false → z.hart.convoys = s.hart.convoys ++ [c] ∧ z.hart.brimConvoys = s.hart.brimConvoys) ∧
        (c.brim = true → z.hart.convoys = s.hart.convoys ∧ z.hart.csr.bseq.extractLsb' 0 32 = s.hart.csr.bseq.extractLsb' 0 32 + 1 ∧
          z.hart.brimConvoys = if s.hart.csr.bsum.getLsbD 23 then s.hart.brimConvoys else s.hart.brimConvoys ++ [c]) ∧
        (c.brim = false ∨ s.hart.csr.bsum.getLsbD 23 = false →
          (∀ r ∈ c.dest, r < 64 → z.hart.progress.getD r 0 = 0) ∧ z.hart.csr.bsum = s.hart.csr.bsum) ∧
        (c.sync = false → z.hart.pc = (s.hart.csr.fallThrough s.hart.pc next).1 ∧
          z.hart.csr.lcnt = (s.hart.csr.fallThrough s.hart.pc next).2.lcnt ∧ z.hart.wait = s.hart.wait) ∧
        (c.sync = true → z.hart.pc = s.hart.pc ∧ z.hart.wait = some i) ∧
        (∀ r, z.x r = s.x r) ∧ z.hart.v = s.hart.v ∧ z.hart.brim = s.hart.brim ∧ z.hart.m = s.hart.m ∧ z.mem = t.mem) ∧
    (passes → (∀ m ∈ ms, ∀ w, vinfo m.1 = some w → w.sent = false ∧ w.kind ≠ .windowMerge) →
      ∃ (z : State) (c : Convoy), exec i s = .next z.settleWork ∧ z.hart.convoys = s.hart.convoys ++ [c] ∧
        c.next = min s.hart.reissue.toNat s.hart.count.groups ∧ z.hart.reissue = 0)
/-- R76, R79, R82, R118, R26: a group of an element-wise convoy commits: every active element of the group receives the
op of its sources at the same place, every other element of every register keeps its value, the flags collect, and the
convoy stands at its next group. Stated for a convoy of one member before its last group, and for one of several members,
each of which sees what the earlier ones have written, whose last group also retires a crown convoy; in either bank, free
of errors. R79, R82, R83: a convoy of such members and a store that faults in the group in hand traps there with nothing
of the group done, its groups below standing, and the younger convoys discarded. -/
def Obligations.LaneGroupsCommit : Prop :=
  (
  ∀ (s : State) (brim : Bool) (c : Convoy) (m : Member) (v : VInfo) (later : List Convoy) (d : BitVec 5)
    (a b : Option (BitVec 5)) (useD scalar : Bool) (op : LaneOp),
    let h := s.hart
    let w := h.elem.width
    let per := 2048 / w
    h.live = true → s.spilled h = false → h.halted = false →
    s.stalled (if brim then .brim h.id else .hart h.id) = false →
    (if brim then h.convoys = [] ∧ h.brimConvoys = c :: later
      else h.queue = [] ∧ h.brimConvoys = [] ∧ h.convoys = c :: later) →
    c.brim = brim → c.members = [m] → vinfo m.instr = some v → v.brim = brim → h.badCrown = [] → h.badBrim = [] →
    (∀ g : Fin 256, h.brimPoison[g] = 0) → c.next + 1 < h.count.groups → d.toNat < h.count.regs →
    (v.kind = .lanes d a b useD op ∧ scalar = false ∨ ∃ b', v.kind = .lanesX d b' useD op ∧ b = some b' ∧ scalar = true) →
    let mask := m.snap.getD (h.mask (v.g.setWidth 5))
    let on := fun (i : Nat) => decide (i / per = c.next) && mask.getLsbD (governing w i)
    let get := fun (r : Option (BitVec 5)) (i : Nat) => match r with
      | some r => s.elem brim r.toNat i
      | none => 0
    let res := fun (i : Nat) => op ⟨w, h.elem, c.rm.toNat⟩ (if scalar then m.sa.toNat % 2 ^ w else get a i) (get b i)
      (if useD then s.elem brim d.toNat i else 0)
    let flags := (List.range h.vmax).foldl (fun (f : Flags) i => if on i then f ||| (res i).2 else f) 0
    ∃ t, exec (if brim then .brimGroupCommit h.id else .convoyGroupCommit h.id) s = .next t ∧
      (∀ i < h.vmax, t.elem brim d.toNat i = if on i then (res i).1 % 2 ^ w else s.elem brim d.toNat i) ∧
      (∀ r i : Nat, r < h.count.regs → r ≠ d.toNat → i < h.vmax → t.elem brim r i = s.elem brim r i) ∧
      (if brim then t.hart.v = h.v ∧ t.hart.brimFlags = h.brimFlags ||| flags ∧ t.hart.csr = h.csr
        else t.hart.brim = h.brim ∧ t.hart.csr = { h.csr with fpctl := h.csr.fpctl ||| (flags.setWidth 64 <<< 5) }) ∧
      (if brim then t.hart.brimConvoys else t.hart.convoys).map Convoy.next = (c.next + 1) :: later.map Convoy.next ∧
      t.hart.m = h.m ∧ (∀ r, t.x r = s.x r) ∧ t.hart.pc = h.pc ∧ t.mem = s.mem) ∧
  (
  ∀ (s : State) (brim : Bool) (c : Convoy) (later : List Convoy) (lane : List Member),
    let h := s.hart
    let w := h.elem.width
    let per := 2048 / w
    h.live = true → s.spilled h = false → h.halted = false →
    s.stalled (if brim then .brim h.id else .hart h.id) = false →
    (if brim then h.convoys = [] ∧ h.brimConvoys = c :: later
      else h.queue = [] ∧ h.brimConvoys = [] ∧ h.convoys = c :: later) →
    c.brim = brim → c.sync = false → h.badCrown = [] → h.badBrim = [] → (∀ g : Fin 256, h.brimPoison[g] = 0) →
    c.next < h.count.groups →
    (∀ m ∈ lane, ∃ v d b useD op, vinfo m.instr = some v ∧ v.brim = brim ∧ d.toNat < h.count.regs ∧
      ((∃ a, v.kind = .lanes d a b useD op) ∨ ∃ b', b = some b' ∧ v.kind = .lanesX d b' useD op)) →
    let masked := fun (m : Member) (v : VInfo) (wide i : Nat) =>
      (m.snap.getD (h.mask (v.g.setWidth 5))).getLsbD (governing wide i)
    let add := fun (u : (Nat → Nat → Nat) × Flags) (m : Member) =>
      match vinfo m.instr with
      | none => u
      | some v =>
        let on := fun (i : Nat) => decide (i / per = c.next) && masked m v w i
        let get := fun (r : Option (BitVec 5)) (i : Nat) => match r with
          | some r => u.1 r.toNat i
          | none => 0
        let write := fun (d : BitVec 5) (useD : Bool) (op : LaneOp) (x y : Nat → Nat) =>
          let r := fun (i : Nat) => op ⟨w, h.elem, c.rm.toNat⟩ (x i) (y i) (if useD then u.1 d.toNat i else 0)
          ((fun (r' i : Nat) => if r' = d.toNat ∧ on i = true then (r i).1 % 2 ^ w else u.1 r' i),
            (List.range h.vmax).foldl (fun (f : Flags) i => if on i then f ||| (r i).2 else f) u.2)
        match v.kind with
        | .lanes d a b useD op => write d useD op (get a) (get b)
        | .lanesX d b useD op => write d useD op (fun _ => m.sa.toNat % 2 ^ w) (get (some b))
        | _ => u
    let left := lane.foldl add (fun r i => s.elem brim r i, 0)
    let same := fun (t : State) => t.hart.m = h.m ∧ (∀ r, t.x r = s.x r) ∧ t.hart.pc = h.pc ∧ t.mem = s.mem
    (c.members = lane → lane ≠ [] →
      ∃ t, exec (if brim then .brimGroupCommit h.id else .convoyGroupCommit h.id) s = .next t ∧ same t ∧
        (∀ r i : Nat, r < h.count.regs → i < h.vmax → t.elem brim r i = left.1 r i) ∧
        (if brim then t.hart.v = h.v ∧ t.hart.brimFlags = h.brimFlags ||| left.2 ∧ t.hart.csr.fpctl = h.csr.fpctl
          else t.hart.brim = h.brim ∧ t.hart.csr.fpctl = h.csr.fpctl ||| (left.2.setWidth 64 <<< 5)) ∧
        (c.next + 1 < h.count.groups ∨ (brim = true ∧ s.lag = true) →
          (if brim then t.hart.brimConvoys else t.hart.convoys).map Convoy.next = (c.next + 1) :: later.map Convoy.next ∧
            t.hart.csr.cvret = h.csr.cvret) ∧
        (c.next + 1 = h.count.groups → brim = false →
          t.hart.convoys = later ∧ t.hart.csr.cvret = h.csr.cvret + 1 ∧ t.hart.csr.ffx = h.csr.ffx ∧
            ∀ r ∈ c.dest, r < 64 → (∀ k ∈ later, r ∉ k.dest) → (t.hart.progress.getD r 0).toNat = h.count.groups)) ∧
    (∀ (m : Member) (v : VInfo) (r : BitVec 5) (k : Nat), c.members = lane ++ [m] → brim = false → vinfo m.instr = some v →
      v.kind = .store r .vector .unit →
      let wide := if w = 4 then 8 else w
      let va := fun (j : Nat) => m.sa + BitVec.ofNat 64 (j * (wide / 8))
      let on := fun (j : Nat) => decide (j / (2048 / wide) = c.next) && masked m v wide j
      on k = true → canonical (va k) = false →
      (∀ j < k, on j = true → canonical (va j) = true ∧ inLocal (va j) = true ∧ (va j).toNat % 256 + wide / 8 ≤ 256 ∧
        s.localWindow false (va j) (wide / 8) ≠ none) →
      ∃ u, exec (.convoyGroupCommit h.id) s = .next (u.trap ⟨.access, c.addr, va k, BitVec.ofNat 6 c.next,
          BitVec.ofNat 32 (if w = 4 then 2 * k else k)⟩) ∧ same u ∧ u.hart.v = h.v ∧ u.hart.brim = h.brim ∧
        u.hart.csr.fpctl = h.csr.fpctl ∧ u.hart.csr.cvret = h.csr.cvret ∧ u.hart.convoys = [] ∧
        (∀ q ∈ c.dest, q < 64 → (u.hart.progress.getD q 0).toNat = c.next) ∧
        ∀ y ∈ later, ∀ q ∈ y.dest, q < 64 → q ∉ c.dest → (u.hart.progress.getD q 0).toNat = h.count.groups))
/-- R79, R80, R209, R317: a convoy whose groups have all committed retires: a brim convoy once its stores to other
packages are answered; its destinations' progress is complete, and CVRET counts it. R143: once no convoy is in flight
before it, a synchronising brim convoy, here a `vext` of the brim, begins: its first group runs, the element read is
kept, and no register changes until it completes. -/
def Obligations.BrimConvoysComplete : Prop :=
  (
  ∀ (s : State) (c : Convoy) (later : List Convoy),
    let h := s.hart
    h.live = true → s.spilled h = false → h.halted = false → s.stalled (.brim h.id) = false → h.convoys = [] →
    h.brimConvoys = c :: later → c.brim = true → c.sync = false →
    (∀ m ∈ c.members, ∃ v, vinfo m.instr = some v ∧ ((∃ d a b u op, v.kind = .lanes d a b u op) ∨
      ∃ r ag shape, v.kind = .store r ag shape)) → c.next = h.count.groups → s.accessesAway c = false →
    ∃ t, exec (.brimConvoyComplete h.id) s = .next t ∧ t.hart.brimConvoys = later ∧ t.hart.csr.cvret = h.csr.cvret + 1 ∧
      t.hart.csr.bseq.extractLsb' 32 32 = c.seq ∧
      (∀ r ∈ c.dest, r < 64 → (∀ k ∈ later, r ∉ k.dest) → (t.hart.progress.getD r 0).toNat = h.count.groups) ∧
      t.hart.brim = h.brim ∧ t.hart.v = h.v ∧ t.hart.m = h.m ∧ (∀ r, t.x r = s.x r) ∧ t.hart.pc = h.pc ∧ t.mem = s.mem) ∧
  (
  ∀ (s : State) (c : Convoy) (m : Member) (v : VInfo) (later : List Convoy) (d a : BitVec 5),
    let h := s.hart
    h.live = true → s.spilled h = false → h.halted = false → s.stalled (.brim h.id) = false → h.convoys = [] →
    h.brimConvoys = c :: later → c.brim = true → c.sync = true → c.next = 0 → c.members = [m] → vinfo m.instr = some v →
    v.kind = .extract d a → v.brim = true → h.badBrim = [] → (∀ g : Fin 256, h.brimPoison[g] = 0) →
    ∃ t c', exec (.brimSyncSend h.id) s = .next t ∧ t.hart.brimConvoys = c' :: later ∧ c'.next = 1 ∧
      (m.sb.toNat < 2048 / h.elem.width → Carry.get c'.partials 63 = some (s.elem true a.toNat m.sb.toNat)) ∧
      t.hart.brim = h.brim ∧ t.hart.v = h.v ∧ t.hart.m = h.m ∧ (∀ r, t.x r = s.x r) ∧ t.hart.pc = h.pc ∧
      t.hart.csr = h.csr ∧ t.mem = s.mem)

/-- R120 to R126: the op of each element-wise instruction, on elements of width w. R127, R130, R138 to R149: the
condition of each compare, the tree of each reduction, the op of each scan, and for every other member its operands, its
placement and, for accesses, the agent and the form of the address. R20, R32 to R35: the conversions between any two formats
that `vcvt` makes, E8M0 among them; what the named floating operations are is `FloatResults`. That vfscale limits its exponent to −5000 and 5000
before it scales is the model's reading (assumption log 74). -/
def Obligations.LaneOperations : Prop :=
  (
  ∀ (p : BitVec 1) (d a b : BitVec 5) (g : BitVec 3) (c : BitVec 1),
    let S := fun (l : Lane) (x : Nat) => (BitVec.ofNat l.w x).toInt
    let int := fun (l : Lane) (k : Int) => ((BitVec.ofInt l.w k).toNat, (0 : Flags))
    let nat := fun (k : Nat) => (k, (0 : Flags))
    let clamp := fun (l : Lane) (k lo hi : Int) => int l (max lo (min hi k))
    let half := fun (l : Lane) => (2 : Int) ^ (l.w - 1)
    let parts := fun (v : VInfo) => v.brim = decide (p = 1) ∧ v.g = g ∧ v.c = decide (c = 1)
    let widths := [4, 8, 16, 32, 64]
    let two := fun (i : Instr) (useD : Bool) (f : LaneOp) => ∃ v op, vinfo i = some v ∧ parts v ∧
      v.kind = .lanes d (some a) (some b) useD op ∧
      ∀ (l : Lane) (x y z : Nat), l.w ∈ widths → l.fmt.width = l.w → x < 2 ^ l.w → y < 2 ^ l.w → z < 2 ^ l.w → op l x y z = f l x y z
    let one := fun (i : Instr) (f : Lane → Nat → Nat × Flags) => ∃ v op, vinfo i = some v ∧ parts v ∧
      v.kind = .lanes d (some a) none false op ∧
      ∀ (l : Lane) (x : Nat), l.w ∈ widths → l.fmt.width = l.w → x < 2 ^ l.w → op l x 0 0 = f l x
    let scalar := fun (i : Instr) (useD : Bool) (f : LaneOp) => ∃ v op, vinfo i = some v ∧ parts v ∧
      v.kind = .lanesX d b useD op ∧
      ∀ (l : Lane) (x y z : Nat), l.w ∈ widths → l.fmt.width = l.w → x < 2 ^ l.w → y < 2 ^ l.w → z < 2 ^ l.w → op l x y z = f l x y z
    let fused := fun (negP negC : Bool) (l : Lane) (x y z : Nat) =>
      let u := decodeF l.fmt x
      let k := decodeF l.fmt z
      let r := fmaF l.rm (if negP then u.neg else u) (decodeF l.fmt y) (if negC then k.neg else k)
      deliver l.fmt l.rm r.2 r.1
    (two (.vadd p d a b g c) false (fun l x y _ => int l (x + y)) ∧ two (.vsub p d a b g c) false (fun l x y _ => int l (x - y)) ∧
      two (.vmul p d a b g c) false (fun l x y _ => int l (x * y)) ∧
      two (.vmulh p d a b g c) false (fun l x y _ => int l (S l x * S l y / 2 ^ l.w)) ∧
      two (.vmulhn p d a b g c) false (fun l x y _ => nat (x * y / 2 ^ l.w)) ∧
      two (.vmin p d a b g c) false (fun l x y _ => int l (min (S l x) (S l y))) ∧
      two (.vmax p d a b g c) false (fun l x y _ => int l (max (S l x) (S l y))) ∧
      two (.vminn p d a b g c) false (fun _ x y _ => nat (min x y)) ∧
      two (.vmaxn p d a b g c) false (fun _ x y _ => nat (max x y)) ∧
      two (.vand p d a b g c) false (fun _ x y _ => nat (x &&& y)) ∧ two (.vor p d a b g c) false (fun _ x y _ => nat (x ||| y)) ∧
      two (.vxor p d a b g c) false (fun _ x y _ => nat (x ^^^ y)) ∧
      two (.vandn p d a b g c) false (fun l x y _ => nat (x &&& (2 ^ l.w - 1 - y))) ∧
      (∃ v op, vinfo (.vsll p d a b g c) = some v ∧ parts v ∧ v.kind = .lanes d (some a) (some b) false op ∧
        ∀ (l : Lane) (x y z : Nat), l.w ∈ widths → x < 2 ^ l.w → op l x y z = nat (x * 2 ^ (y % l.w) % 2 ^ l.w)) ∧
      two (.vsrl p d a b g c) false (fun l x y _ => nat (x / 2 ^ (y % l.w))) ∧
      two (.vsra p d a b g c) false (fun l x y _ => int l (S l x / 2 ^ (y % l.w)))) ∧
    (two (.vdiv p d a b g c) false (fun l x y _ => if y = 0 then nat (2 ^ l.w - 1)
        else if S l x = -half l ∧ S l y = -1 then nat x else int l ((S l x).tdiv (S l y))) ∧
      two (.vrem p d a b g c) false (fun l x y _ => if y = 0 then nat x
        else if S l x = -half l ∧ S l y = -1 then nat 0 else int l ((S l x).tmod (S l y))) ∧
      two (.vdivn p d a b g c) false (fun l x y _ => nat (if y = 0 then 2 ^ l.w - 1 else x / y)) ∧
      two (.vremn p d a b g c) false (fun _ x y _ => nat (if y = 0 then x else x % y)) ∧
      two (.vsadd p d a b g c) false (fun l x y _ => clamp l (S l x + S l y) (-half l) (half l - 1)) ∧
      two (.vsaddn p d a b g c) false (fun l x y _ => nat (min (x + y) (2 ^ l.w - 1))) ∧
      two (.vssub p d a b g c) false (fun l x y _ => clamp l (S l x - S l y) (-half l) (half l - 1)) ∧
      two (.vssubn p d a b g c) false (fun _ x y _ => nat (x - y)) ∧
      two (.vmacc p d a b g c) true (fun l x y z => int l (z + x * y)) ∧
      two (.vmsac p d a b g c) true (fun l x y z => int l (z - x * y))) ∧
    (two (.vfadd p d a b g c) false (fun l x y _ => fAdd l.fmt l.rm x y) ∧
      two (.vfsub p d a b g c) false (fun l x y _ => fSub l.fmt l.rm x y) ∧
      two (.vfmul p d a b g c) false (fun l x y _ => fMul l.fmt l.rm x y) ∧
      two (.vfdiv p d a b g c) false (fun l x y _ => fDiv l.fmt l.rm x y) ∧
      two (.vfmin p d a b g c) false (fun l x y _ => fMinmax l.fmt false x y) ∧
      two (.vfmax p d a b g c) false (fun l x y _ => fMinmax l.fmt true x y) ∧
      two (.vfsgnj p d a b g c) false (fun l x y _ => nat (x % l.fmt.signBit + y / l.fmt.signBit * l.fmt.signBit)) ∧
      two (.vfsgnjn p d a b g c) false (fun l x y _ => nat (x % l.fmt.signBit + (1 - y / l.fmt.signBit) * l.fmt.signBit)) ∧
      two (.vfscale p d a b g c) false (fun l x y _ => match decodeF l.fmt x with
        | .nan => nat l.fmt.nanBits
        | .inf _ => nat x
        | .num neg m e => if m = 0 then nat x else roundTo l.fmt l.rm false neg m (e + max (-5000) (min 5000 (S l y)))) ∧
      two (.vfma p d a b g c) true (fused false false) ∧ two (.vfms p d a b g c) true (fused false true) ∧
      two (.vfnma p d a b g c) true (fused true true) ∧ two (.vfnms p d a b g c) true (fused true false)) ∧
    (one (.vabs p d a g c) (fun l x => int l (S l x).natAbs) ∧ one (.vneg p d a g c) (fun l x => int l (-x)) ∧
      one (.vnot p d a g c) (fun l x => nat (2 ^ l.w - 1 - x)) ∧
      one (.vpopc p d a g c) (fun l x => nat ((List.range l.w).countP fun k => x.testBit k)) ∧
      one (.vclz p d a g c) (fun l x => nat (if x = 0 then l.w else l.w - 1 - x.log2)) ∧
      one (.vfsqrt p d a g c) (fun l x => fSqrt l.fmt l.rm x) ∧
      one (.vfclass p d a g c) (fun l x => nat (fClass l.fmt x).log2) ∧
      one (.vfexpo p d a g c) (fun l x => match decodeF l.fmt x with
        | .nan => (2 ^ (l.w - 1) - 1, flagNV)
        | .inf _ => nat (2 ^ (l.w - 1) - 1)
        | .num _ 0 _ => (2 ^ (l.w - 1), flagDZ)
        | .num _ m e => int l (m.log2 + e)) ∧
      one (.vfround p d a g c) (fun l x => match decodeF l.fmt x with
        | .nan => nat l.fmt.nanBits
        | .inf _ => nat x
        | .num neg m e =>
          let r := integral l.rm neg m e
          if r.2 then nat x else ((roundTo l.fmt l.rm false neg r.1.natAbs 0).1, flagNX)) ∧
      one (.vfmant p d a g c) (fun l x => match decodeF l.fmt x with
        | .nan => nat l.fmt.nanBits
        | .inf _ => nat x
        | .num neg m _ => if m = 0 then nat x else nat (roundTo l.fmt 0 false neg m (-(m.log2 : Int))).1) ∧
      one (.vfabs p d a g c) (fun l x => nat (x % l.fmt.signBit)) ∧
      one (.vfneg p d a g c) (fun l x => nat (if x < l.fmt.signBit then x + l.fmt.signBit else x - l.fmt.signBit))) ∧
    (scalar (.vaddX p d a b g c) false (fun l x y _ => int l (x + y)) ∧ scalar (.vrsubX p d a b g c) false (fun l x y _ => int l (x - y)) ∧
      scalar (.vmulX p d a b g c) false (fun l x y _ => int l (x * y)) ∧
      scalar (.vsllX p d a b g c) false (fun l x y _ => nat (y * 2 ^ (x % l.w) % 2 ^ l.w)) ∧
      scalar (.vfaddX p d a b g c) false (fun l x y _ => fAdd l.fmt l.rm x y) ∧
      scalar (.vfrsubX p d a b g c) false (fun l x y _ => fSub l.fmt l.rm x y) ∧
      scalar (.vfmulX p d a b g c) false (fun l x y _ => fMul l.fmt l.rm x y) ∧
      scalar (.vfmaX p d a b g c) true (fused false false))) ∧
  (
  ∀ (p : BitVec 1) (d a b : BitVec 5) (g : BitVec 3) (c : BitVec 1) (f k : BitVec 4),
    let S := fun (w x : Nat) => (BitVec.ofNat w x).toInt
    let parts := fun (v : VInfo) (brim : Bool) => v.brim = brim ∧ v.g = g ∧ v.c = decide (c = 1)
    let widths := [4, 8, 16, 32, 64]
    let on := fun (l : Lane) (x y : Nat) => l.w ∈ widths ∧ l.fmt.width = l.w ∧ x < 2 ^ l.w ∧ y < 2 ^ l.w
    let cmp := fun (i : Instr) (f : Lane → Nat → Nat → Prop) (ordered : Bool) => ∃ v test, vinfo i = some v ∧ parts v false ∧
      v.kind = .cmp d a b test ∧ ∀ l x y, on l x y → ((test l x y).1 = true ↔ f l x y) ∧
        let invalid := ordered = true ∧ (notNumber l.fmt x ∨ notNumber l.fmt y)
        (invalid → (test l x y).2 = flagNV) ∧ (¬invalid → (test l x y).2 = 0)
    let lt := fun (l : Lane) (x y : Nat) => ∃ p q, HasValue l.fmt x p ∧ HasValue l.fmt y q ∧ p < q
    let eq := fun (l : Lane) (x y : Nat) => ∃ p, HasValue l.fmt x p ∧ HasValue l.fmt y p
    let tree := fun (i : Instr) (identity : Lane → Nat) (enter : Lane → Nat → Nat) (node : Lane → Nat → Nat → Nat × Flags) =>
      ∃ v t, vinfo i = some v ∧ parts v (decide (p = 1)) ∧ v.kind = .reduce d a t ∧ ∀ l x y, on l x 0 → x < 2 ^ 64 → y < 2 ^ 64 →
        t.identity l = identity l ∧ t.enter l x = enter l x ∧ ∀ z < 2 ^ 64, t.node l z y = node l z y
    let signed := fun (l : Lane) (x : Nat) => (BitVec.ofInt 64 (S l.w x)).toNat
    let int := fun (k : Int) => ((BitVec.ofInt 64 k).toNat, (0 : Flags))
    let wide := fun (l : Lane) => if l.w ≤ 16 then Elem.fp32 else l.fmt
    let enter := fun (l : Lane) (x : Nat) => if l.w ≤ 16 then (toFloat .fp32 0 false (decodeF l.fmt x)).1 else x
    let scan := fun (i : Instr) (f : Lane → Nat → Nat → Nat × Flags) => ∃ v op, vinfo i = some v ∧ parts v (decide (p = 1)) ∧
      v.kind = .scan d a op ∧ ∀ l x y, on l x y → op l x y = f l x y
    let is := fun (i : Instr) (brim : Bool) (kind : VKind) (x : Option (BitVec 5) × Option (BitVec 5)) =>
      (∃ v, vinfo i = some v ∧ parts v brim ∧ v.kind = kind) ∧ scalarFields i = x
    (cmp (.vcmpEq d a b g c) (fun _ x y => x = y) false ∧ cmp (.vcmpNe d a b g c) (fun _ x y => x ≠ y) false ∧
      cmp (.vcmpLt d a b g c) (fun l x y => S l.w x < S l.w y) false ∧ cmp (.vcmpGe d a b g c) (fun l x y => S l.w y ≤ S l.w x) false ∧
      cmp (.vcmpLtn d a b g c) (fun _ x y => x < y) false ∧ cmp (.vcmpGen d a b g c) (fun _ x y => y ≤ x) false ∧
      cmp (.vfcmpEq d a b g c) eq false ∧ cmp (.vfcmpNe d a b g c) (fun l x y => ¬eq l x y) false ∧
      cmp (.vfcmpLt d a b g c) lt true ∧ cmp (.vfcmpLe d a b g c) (fun l x y => lt l x y ∨ eq l x y) true ∧
      cmp (.vfcmpGt d a b g c) (fun l x y => lt l y x) true ∧ cmp (.vfcmpGe d a b g c) (fun l x y => lt l y x ∨ eq l x y) true ∧
      cmp (.vfcmpUn d a b g c) (fun l x y => notNumber l.fmt x ∨ notNumber l.fmt y) false) ∧
    (tree (.vredsum p d a g c) (fun _ => 0) signed (fun _ x y => int (x + y)) ∧
      tree (.vredmin p d a g c) (fun _ => 2 ^ 63 - 1) signed (fun _ x y => int (min (S 64 x) (S 64 y))) ∧
      tree (.vredmax p d a g c) (fun _ => 2 ^ 63) signed (fun _ x y => int (max (S 64 x) (S 64 y))) ∧
      tree (.vredminn p d a g c) (fun _ => 2 ^ 64 - 1) (fun _ x => x) (fun _ x y => (min x y, 0)) ∧
      tree (.vredmaxn p d a g c) (fun _ => 0) (fun _ x => x) (fun _ x y => (max x y, 0)) ∧
      tree (.vfredsum p d a g c) (fun l => (wide l).signBit) enter (fun l x y => fAdd (wide l) l.rm x y) ∧
      tree (.vfredmin p d a g c) (fun l => (wide l).infBits) enter (fun l x y => fMinmax (wide l) false x y) ∧
      tree (.vfredmax p d a g c) (fun l => (wide l).signBit + (wide l).infBits) enter (fun l x y => fMinmax (wide l) true x y)) ∧
    (scan (.vscanAdd p d a g c) (fun l x y => ((x + y) % 2 ^ l.w, 0)) ∧
      scan (.vscanMax p d a g c) (fun l x y => ((BitVec.ofInt l.w (max (S l.w x) (S l.w y))).toNat, 0)) ∧
      scan (.vscanMin p d a g c) (fun l x y => ((BitVec.ofInt l.w (min (S l.w x) (S l.w y))).toNat, 0)) ∧
      scan (.vfscanAdd p d a g c) (fun l x y => fAdd l.fmt l.rm x y) ∧
      scan (.vfscanMax p d a g c) (fun l x y => fMinmax l.fmt true x y) ∧
      scan (.vfscanMin p d a g c) (fun l x y => fMinmax l.fmt false x y)) ∧
    (is (.vwred a b g c) false (.windowAdd a b) (none, none) ∧
      is (.vid p d g c) (decide (p = 1)) (.ident d) (none, none) ∧
      is (.viota p d a g c) (decide (p = 1)) (.iota d a) (none, none) ∧
      is (.vcvt p f k d a g c) (decide (p = 1)) (.cvt d a f k) (none, none) ∧
      is (.vslideup p d a b g c) (decide (p = 1)) (.slideUp d a) (none, some b) ∧
      is (.vslidedn p d a b g c) (decide (p = 1)) (.slideDown d a) (none, some b) ∧
      is (.vperm p d a b g c) (decide (p = 1)) (.perm d a b) (none, none) ∧
      is (.vcompress p d a g c) (decide (p = 1)) (.compress d a) (none, none) ∧
      is (.vexpand p d a g c) (decide (p = 1)) (.expand d a) (none, none) ∧
      is (.vconf p d a g c) (decide (p = 1)) (.conf d a) (none, none) ∧
      is (.vsprs p d a g c) (decide (p = 1)) (.sparse d a) (none, none) ∧
      is (.vmv p d a g c) (decide (p = 1)) (.copy d a) (none, none) ∧
      is (.vdup p d a g c) (decide (p = 1)) (.dup d) (some a, none) ∧
      is (.vmerge p d a b g c) (decide (p = 1)) (.merge d a b) (none, none) ∧
      is (.vrec p d a b g c) (decide (p = 1)) (.recur d a b) (none, none) ∧
      is (.vld p d a g c) (decide (p = 1)) (.load d (if p = 1 then .vertical else .vector) .unit) (some a, none) ∧
      is (.vlds p d a b g c) (decide (p = 1)) (.load d (if p = 1 then .vertical else .vector) .strided) (some a, some b) ∧
      is (.vldAcq d a g c) false (.load d .vector .unit) (some a, none) ∧
      is (.vldsAcq d a b g c) false (.load d .vector .strided) (some a, some b) ∧
      is (.vldV d a g c) true (.load d .vertical .unit) (some a, none) ∧
      is (.vldsV d a b g c) true (.load d .vertical .strided) (some a, some b) ∧
      is (.vldL d a g c) true (.load d .lateral .unit) (some a, none) ∧
      is (.vldsL d a b g c) true (.load d .lateral .strided) (some a, some b) ∧
      is (.vldNt d a g c) false (.load d .vector .unit) (some a, none) ∧
      is (.vldsNt d a b g c) false (.load d .vector .strided) (some a, some b) ∧
      is (.vldx d a b g c) false (.load d .vector (.indexed b true false)) (some a, none) ∧
      is (.vldxB d a b g c) false (.load d .vector (.indexed b false false)) (some a, none) ∧
      is (.vldxBd d a b g c) false (.load d .vector (.indexed b true true)) (some a, none) ∧
      is (.vldxV d a b g c) true (.load d .vertical (.indexed b true false)) (some a, none) ∧
      is (.vldxL d a b g c) true (.load d .lateral (.indexed b true false)) (some a, none) ∧
      is (.vldxVbd d a b g c) true (.load d .vertical (.indexed b true true)) (some a, none) ∧
      is (.vldxLbd d a b g c) true (.load d .lateral (.indexed b true true)) (some a, none) ∧
      is (.vst p d a g c) (decide (p = 1)) (.store d (if p = 1 then .vertical else .vector) .unit) (some a, none) ∧
      is (.vsts p d a b g c) (decide (p = 1)) (.store d (if p = 1 then .vertical else .vector) .strided) (some a, some b) ∧
      is (.vstV d a g c) true (.store d .vertical .unit) (some a, none) ∧
      is (.vstsV d a b g c) true (.store d .vertical .strided) (some a, some b) ∧
      is (.vstL d a g c) true (.store d .lateral .unit) (some a, none) ∧
      is (.vstsL d a b g c) true (.store d .lateral .strided) (some a, some b) ∧
      is (.vstNt d a g c) false (.store d .vector .unit) (some a, none) ∧
      is (.vstsNt d a b g c) false (.store d .vector .strided) (some a, some b) ∧
      is (.vstx d a b g c) false (.store d .vector (.indexed b true false)) (some a, none) ∧
      is (.vstxB d a b g c) false (.store d .vector (.indexed b false false)) (some a, none) ∧
      is (.vstxBd d a b g c) false (.store d .vector (.indexed b true true)) (some a, none) ∧
      is (.vstxV d a b g c) true (.store d .vertical (.indexed b true false)) (some a, none) ∧
      is (.vstxL d a b g c) true (.store d .lateral (.indexed b true false)) (some a, none) ∧
      is (.vstxVbd d a b g c) true (.store d .vertical (.indexed b true true)) (some a, none) ∧
      is (.vstxLbd d a b g c) true (.store d .lateral (.indexed b true true)) (some a, none) ∧
      (∃ v, vinfo (.vext p d a b c) = some v ∧ v.brim = decide (p = 1) ∧ v.g = 0 ∧ v.kind = .extract d a ∧
        scalarFields (.vext p d a b c) = (none, some b)) ∧
      (∃ v, vinfo (.vins p d a b c) = some v ∧ v.brim = decide (p = 1) ∧ v.g = 0 ∧ v.kind = .insert d ∧
        scalarFields (.vins p d a b c) = (some a, some b)) ∧
      (∃ v, vinfo (.vmovcb d a g) = some v ∧ v.sent = true ∧ v.g = g ∧ v.kind = .toBrim d a) ∧
      (∃ v, vinfo (.vmovbc d a g) = some v ∧ v.sent = false ∧ v.syncs = true ∧ v.g = g ∧ v.kind = .toCrown d a) ∧
      (∃ v, vinfo .vwmerge = some v ∧ v.sent = false ∧ v.kind = .windowMerge))) ∧
  (
  ∀ (rm : Nat) (sat : Bool) (F G : Elem) (w n : Nat) (s t : Bool) (a : Nat), 1 < w → w ≤ 64 → 1 < n → n ≤ 64 → rm ≤ 4 →
    let i : Int := if s then (BitVec.ofNat w a).toInt else a
    (a < 2 ^ F.width →
      convert (.flt G) (.flt F) rm sat a = toFloat G rm sat (decodeF F a) ∧
      convert (.int n t) (.flt F) rm sat a = toInteger n t rm (decodeF F a) ∧
      (notNumber F a ∨ infinite F a → convert .e8m0 (.flt F) rm sat a = (0xFF, flagNV)) ∧
      (finite F a = some 0 → convert .e8m0 (.flt F) rm sat a = (0, flagUF ||| flagNX)) ∧
      ∀ x, finite F a = some x → x ≠ 0 → Scales x (convert .e8m0 (.flt F) rm sat a)) ∧
    (a < 255 → let x : ℝ := 2 ^ ((a : Int) - 127)
      Rounds G rm sat x (convert (.flt G) .e8m0 rm sat a) ∧ Clamps n t rm x (convert (.int n t) .e8m0 rm sat a)) ∧
    (a = 255 → convert (.flt G) .e8m0 rm sat a = (canonicalNaN G, if G = .e2m1 then flagNV else 0) ∧
      convert (.int n t) .e8m0 rm sat a = (0, flagNV)) ∧
    (a < 2 ^ w →
      convert (.flt G) (.int w s) rm sat a = ofInteger G rm sat i ∧
      (i = 0 → convert .e8m0 (.int w s) rm sat a = (0, flagUF ||| flagNX)) ∧
      (i ≠ 0 → Scales i (convert .e8m0 (.int w s) rm sat a)) ∧
      let lo : Int := if t then -2 ^ (n - 1) else 0
      let hi : Int := if t then 2 ^ (n - 1) - 1 else 2 ^ n - 1
      convert (.int n t) (.int w s) rm sat a = (((max lo (min hi i)) % 2 ^ n).toNat, 0)))

/-! ## Vector instructions from issue to their last group (R72, R118 to R150) -/

/-- R82, R118 to R129, R138 to R141, R144 to R146: a vector instruction alone in its convoy, with nothing in flight,
completes in its step: each active element of its destination receives the result of its row, computed from the sources
as they were, and every other element of every register of both banks is as it was. A `vcvt` onto its own source between
two widths is no instruction (R127). -/
def Obligations.VectorRegisterResults : Prop :=
  ∀ (s : State) (i : Instr) (v : VInfo), s.vectorFree i v →
    let w := s.hart.elem.width
    let n := s.hart.vmax
    let on := s.active v w
    let lane : Lane := ⟨w, s.hart.elem, (s.hart.csr.fpctl &&& 7).toNat⟩
    let src := fun (r : BitVec 5) (k : Nat) => s.elem v.brim r.toNat k
    let A := (s.scalarA i).toNat
    let B := (s.scalarB i).toNat
    let gives := fun (d : BitVec 5) (on : Nat → Bool) (f : Nat → Nat) => GivesVector i s v v.brim d on f 0
    (∀ d a b useD op, v.kind = .lanes d a b useD op →
      let get := fun (r : Option (BitVec 5)) (k : Nat) => match r with
        | some r => src r k
        | none => 0
      let f := fun k => op lane (get a k) (get b k) (if useD then src d k else 0)
      GivesVector i s v v.brim d on (fun k => (f k).1) (s.flagsOf on fun k => (f k).2)) ∧
    (∀ d b useD op, v.kind = .lanesX d b useD op →
      let f := fun k => op lane (A % 2 ^ w) (src b k) (if useD then src d k else 0)
      GivesVector i s v v.brim d on (fun k => (f k).1) (s.flagsOf on fun k => (f k).2)) ∧
    (∀ d, v.kind = .ident d → gives d on fun k => k) ∧
    (∀ d m, v.kind = .iota d m →
      gives d on fun k => (List.range k).countP fun j => on j && (s.hart.mask m).getLsbD (governing w j)) ∧
    (∀ d a, v.kind = .slideUp d a → gives d (fun k => on k && decide (B ≤ k)) fun k => src a (k - B)) ∧
    (∀ d a, v.kind = .slideDown d a → gives d on fun k => if k + B < n then src a (k + B) else 0) ∧
    (∀ d a b, v.kind = .perm d a b → gives d on fun k => if src b k < n then src a (src b k) else 0) ∧
    (∀ d a, v.kind = .compress d a →
      let act := (List.range n).filter on
      gives d (fun k => decide (k < act.length)) fun k => src a (act.getD k 0)) ∧
    (∀ d a, v.kind = .expand d a → gives d on fun k => src a ((List.range k).countP on)) ∧
    (∀ d a, v.kind = .conf d a →
      gives d on fun k => ((List.range k).reverse.find? fun j => on j && decide (src a j = src a k)).getD (2 ^ w - 1)) ∧
    (∀ d a op, v.kind = .scan d a op →
      let next := fun (acc : Option Nat) (j : Nat) => match acc with
        | none => (src a j, (0 : Flags))
        | some u => op lane u (src a j)
      let acc := fun k => (List.range k).foldl (fun (c : Option Nat) j => if on j then some (next c j).1 else c) none
      GivesVector i s v v.brim d on (fun k => (next (acc k) k).1) (s.flagsOf on fun k => (next (acc k) k).2)) ∧
    (∀ d a b, v.kind = .recur d a b →
      let next := fun (c : Nat) (j : Nat) => fFma lane.fmt lane.rm false false (src a j) c (src b j)
      let acc := fun k => (List.range k).foldl (fun (c : Nat) j => if on j then (next c j).1 else c) (src d 0)
      GivesVector i s v v.brim d on (fun k => (next (acc k) k).1) (s.flagsOf on fun k => (next (acc k) k).2)) ∧
    (∀ d, v.kind = .dup d → gives d on fun _ => A) ∧
    (∀ d, v.kind = .insert d → gives d (fun k => decide (k = B)) fun _ => A) ∧
    (∀ d a, v.kind = .copy d a → gives d on fun k => src a k) ∧
    (∀ d a b, v.kind = .merge d a b → gives d (fun _ => true) fun k => if on k then src a k else src b k) ∧
    (∀ d a, v.kind = .toBrim d a → GivesVector i s v true d on (fun k => s.elem false a.toNat k) 0) ∧
    (∀ d a, v.kind = .toCrown d a → GivesVector i s v false d on (fun k => s.elem true a.toNat k) 0) ∧
    (∀ d a dst src, v.kind = .cvt d a dst src → (a ≠ d ∨ fmtWidth src = fmtWidth dst) →
      let from_ := fmtWidth src
      let into := fmtWidth dst
      let wide := max from_ into
      let f := fun k => convert (fmtOf dst) (fmtOf src) lane.rm (s.hart.csr.fpctl.getLsbD 3) (s.hart.elemAt v.brim a.toNat from_ k)
      let total := 8 * (65536 / s.hart.count.regs) / wide
      ∃ t, VectorCompletes i s t v
          ((List.range total).foldl (fun (r : Flags) k => if s.active v wide k then r ||| (f k).2 else r) 0) ∧ s.sameMemory t ∧
        (∀ k < total, t.hart.elemAt v.brim d.toNat into k =
          if s.active v wide k then (f k).1 % 2 ^ into else s.hart.elemAt v.brim d.toNat into k) ∧
        (∀ k, total ≤ k → k < 8 * (65536 / s.hart.count.regs) / into →
          t.hart.elemAt v.brim d.toNat into k = s.hart.elemAt v.brim d.toNat into k) ∧
        ∀ (b : Bool) (r k : Nat), r < s.hart.count.regs → (b ≠ v.brim ∨ r ≠ d.toNat) → k < n → t.elem b r k = s.elem b r k) ∧
    (∀ d a, v.kind = .sparse d a →
      let key := fun q j => src a (4 * q + j)
      ∃ t, VectorCompletes i s t v 0 ∧ s.sameMemory t ∧
        (∀ q < n / 4, if on (4 * q) then
            ∃ lo hi, lo < hi ∧ hi < 4 ∧ t.elem v.brim d.toNat (2 * q) = key q lo ∧ t.elem v.brim d.toNat (2 * q + 1) = key q hi ∧
              t.hart.elemAt v.brim (d.toNat + 1) 4 q = lo + 4 * hi ∧
              ∀ j < 4, j ≠ lo → j ≠ hi → ∀ m, (m = lo ∨ m = hi) → keyAbove s.hart.elem (key q m) (key q j) = true ∨
                (keyAbove s.hart.elem (key q j) (key q m) = false ∧ m < j)
          else t.elem v.brim d.toNat (2 * q) = src d (2 * q) ∧ t.elem v.brim d.toNat (2 * q + 1) = src d (2 * q + 1) ∧
            t.hart.elemAt v.brim (d.toNat + 1) 4 q = s.hart.elemAt v.brim (d.toNat + 1) 4 q) ∧
        (∀ k, n / 2 ≤ k → k < n → t.elem v.brim d.toNat k = src d k) ∧
        (∀ q, n / 4 ≤ q → q < 2 * (65536 / s.hart.count.regs) →
          t.hart.elemAt v.brim (d.toNat + 1) 4 q = s.hart.elemAt v.brim (d.toNat + 1) 4 q) ∧
        ∀ (b : Bool) (r k : Nat), r < s.hart.count.regs → (b ≠ v.brim ∨ (r ≠ d.toNat ∧ r ≠ d.toNat + 1)) → k < n →
          t.elem b r k = s.elem b r k)
/-- R36, R72, R74, R130, R142, R143, R145: a compare, a reduction and `vext` alone in a convoy, with nothing in flight:
the mask receives the bits of the compare, xd the root of the balanced tree over the active elements or the identity, or
the element named. No vector register changes; a brim synchronisation also takes the flags that the brim agent
collected, and the agent keeps none. -/
def Obligations.VectorScalarAndMaskResults : Prop :=
  ∀ (s : State) (i : Instr) (v : VInfo), s.vectorFree i v →
    let w := s.hart.elem.width
    let n := s.hart.vmax
    let on := s.active v w
    let lane : Lane := ⟨w, s.hart.elem, (s.hart.csr.fpctl &&& 7).toNat⟩
    let src := fun (r : BitVec 5) (k : Nat) => s.elem v.brim r.toNat k
    let same := fun (t : State) => exec i s = .next t ∧ s.fellThrough t 4 ∧ s.sameMemory t ∧ t.hart.v = s.hart.v ∧
      t.hart.brim = s.hart.brim ∧ t.hart.csr.cvret = s.hart.csr.cvret + 1 ∧ t.hart.convoys = [] ∧ t.hart.brimConvoys = []
    let flags := fun (t : State) (f : Flags) =>
      t.hart.csr.fpctl = s.hart.csr.fpctl ||| ((if v.brim then f ||| s.hart.brimFlags else f).setWidth 64 <<< 5) ∧
        t.hart.brimFlags = if v.brim then 0 else s.hart.brimFlags
    (∀ m a b test, v.kind = .cmp m a b test → m.toNat < 24 → v.brim = false →
      let r := fun k => test lane (src a k) (src b k)
      ∃ (t : State) (k : Mask), same t ∧ (∀ x, t.x x = s.x x) ∧ flags t (s.flagsOf on fun k => (r k).2) ∧
        MaskOf w n (fun k => on k = true ∧ (r k).1 = true) k ∧ t.hart.mask m = (if m = 0 then BitVec.allOnes 8192 else k) ∧
        ∀ x, x ≠ m → t.hart.mask x = s.hart.mask x) ∧
    (∀ x a tree, v.kind = .reduce x a tree →
      let r := treeFold (tree.node lane) n.log2
        ((List.range n).map fun k => if on k then some (tree.enter lane (src a k)) else none)
      ∃ t, same t ∧ flags t r.2 ∧ t.hart.m = s.hart.m ∧ s.wroteX t x (BitVec.ofNat 64 (r.1.getD (tree.identity lane)))) ∧
    (∀ x a, v.kind = .extract x a →
      let j := (s.scalarB i).toNat
      ∃ t, same t ∧ flags t 0 ∧ t.hart.m = s.hart.m ∧ s.wroteX t x (BitVec.ofNat 64 (if j < n then src a j else 0)))
/-- R70, R148, R149: a vector load or store alone in its convoy, with one active element `j`, which lies in group 0: the
element's address is that of R148, the bytes `ps` that its checks let it reach are read into the element, or receive its
bits, and every other element and byte is as it was. `z` is the state in which the access is made; a load leaves FFX at
VMAX. R82, R83, R150, R151: the same with active elements in any groups, which lie in scratchpads that the hart's windows
reach: each active element is read or stored, and of several that cover a byte the highest stands; at the first that
faults, at an address that is not canonical, an index out of bounds or an address beyond the windows, a load trims, or
traps where it is its first active element, and a store traps with the groups below standing. An indexed load onto its own
index register at SEW 64 is left out: its elements are unordered within a group (R76), and the order in which the model
takes them is its choice (assumption log 103). -/
def Obligations.VectorAccessResults : Prop :=
  (
  ∀ (s : State) (i : Instr) (v : VInfo) (d : BitVec 5) (ag : Agent) (shape : MemShape) (load : Bool) (j : Nat) (ps : List Piece)
    (s1 : State), s.vectorFree i v → Memory.wf s.mem = true → s.hart.ffxOrder ≤ s.hart.issued →
    v.kind = (if load then .load d ag shape else .store d ag shape) →
    let w := s.hart.elem.width
    let wide := match shape with
      | .indexed _ _ _ => max w 32
      | _ => if w = 4 then 8 else w
    let aw := match shape with
      | .indexed _ _ _ => w
      | _ => if w = 4 then 8 else w
    let total := 8 * (65536 / s.hart.count.regs) / wide
    let xb := s.scalarA i
    let index := fun (r : BitVec 5) => BitVec.toInt (BitVec.ofNat 32 (s.hart.elemAt v.brim r.toNat 32 j))
    let va : Word := match shape with
      | .unit => xb + BitVec.ofNat 64 (j * (aw / 8))
      | .strided => xb + BitVec.ofInt 64 (j * (s.scalarB i).toInt)
      | .indexed r scaled _ => xb + BitVec.ofInt 64 (if scaled then index r * (w / 8 : Nat) else index r)
    let need : Need := if load then ⟨true, false, false⟩ else ⟨false, true, false⟩
    let z := s.enterLine i (s.convoyOf [(i, s.hart.pc)])
    (∀ k < total, s.active v wide k = decide (k = j)) → j < total / s.hart.count.groups → canonical va = true →
    (∀ r scaled, shape = .indexed r scaled true →
      0 ≤ index r ∧ index r < (s.hart.csr.vxb.extractLsb' 0 32).toNat) →
    z.reachAll ag need va (aw / 8) = (.ok ps, s1) →
    (load = true → readable ps → (∀ p ∈ ps, ∀ l, p.place = .here l → s.readFails l p.len = false) →
      ∃ t, VectorCompletes i s t v 0 ∧ s.wroteOnly t [] ps ∧ t.hart.csr.ffx = BitVec.ofNat 64 s.hart.vmax ∧
        t.hart.elemAt v.brim d.toNat aw j = valueOf (s.bytesAt ps) ∧
        (∀ k, k ≠ j → k < 8 * (65536 / s.hart.count.regs) / aw →
          t.hart.elemAt v.brim d.toNat aw k = s.hart.elemAt v.brim d.toNat aw k) ∧
        ∀ (b : Bool) (r k : Nat), r < s.hart.count.regs → (b ≠ v.brim ∨ r ≠ d.toNat) → k < s.hart.vmax → t.elem b r k = s.elem b r k) ∧
    (load = false → writable ps →
      ∃ t, VectorCompletes i s t v 0 ∧ s.wroteOnly t ps [] ∧ t.hart.csr.ffx = s.hart.csr.ffx ∧
        t.bytesAt ps = lowBytes (BitVec.ofNat 64 (s.hart.elemAt v.brim d.toNat aw j)) (aw / 8) ∧
        t.hart.v = s.hart.v ∧ t.hart.brim = s.hart.brim)) ∧
  (
  ∀ (s : State) (i : Instr) (v : VInfo) (d : BitVec 5) (ag : Agent) (shape : MemShape) (load : Bool) (loc : Nat → Nat),
    s.vectorFree i v → Memory.wf s.mem = true → s.hart.ffxOrder ≤ s.hart.issued → v.brim = false →
    v.kind = (if load then .load d ag shape else .store d ag shape) →
    let w := s.hart.elem.width
    let wide := match shape with
      | .indexed _ _ _ => max w 32
      | _ => if w = 4 then 8 else w
    let aw := match shape with
      | .indexed _ _ _ => w
      | _ => if w = 4 then 8 else w
    let n := aw / 8
    let total := 8 * (65536 / s.hart.count.regs) / wide
    let index := fun (r : BitVec 5) (k : Nat) => BitVec.toInt (BitVec.ofNat 32 (s.hart.elemAt false r.toNat 32 k))
    let va := fun (k : Nat) => s.scalarA i + match shape with
      | .unit => BitVec.ofNat 64 (k * n)
      | .strided => BitVec.ofInt 64 (k * (s.scalarB i).toInt)
      | .indexed r scaled _ => BitVec.ofInt 64 (if scaled then index r k * n else index r k)
    let outside : Nat → Option Word := fun k => match shape with
      | .indexed r _ true =>
        if 0 ≤ index r k ∧ index r k < (s.hart.csr.vxb.extractLsb' 0 32).toNat then none else some (BitVec.ofInt 64 (index r k))
      | _ => none
    let on := fun (k : Nat) => decide (k < total) && s.active v wide k
    let fine := fun (k : Nat) => canonical (va k) = true ∧ outside k = none ∧ inLocal (va k) = true ∧
      (va k).toNat % 256 + n ≤ 256 ∧ s.localWindow false (va k) n = some (loc k) ∧
      (load = true → s.readFails (loc k) n = false)
    let fault : Nat → Option (Cause × Word) := fun k =>
      if canonical (va k) = false then some (.access, va k)
      else match outside k with
        | some x => some (.bound, x)
        | none => if inLocal (va k) = true ∧ (va k).toNat % 256 + n ≤ 256 ∧ s.localWindow false (va k) n = none then
            some (.access, va k) else none
    let group := fun (k : Nat) => k / (total / s.hart.count.groups)
    let place := fun (k : Nat) => if w = 4 then 2 * k else governing wide k * 8 / w
    let loaded := fun (t : State) (m : Nat) => s.sameMemory t ∧ t.hart.brim = s.hart.brim ∧
      (∀ k < 8 * (65536 / s.hart.count.regs) / aw, t.hart.elemAt false d.toNat aw k =
        if on k = true ∧ k < m then valueOf (s.readLoc (loc k) n) else s.hart.elemAt false d.toNat aw k) ∧
      ∀ r k : Nat, r < s.hart.count.regs → r ≠ d.toNat → k < s.hart.vmax → t.elem false r k = s.elem false r k
    let stored := fun (t : State) (q : Nat → Bool) => t.hart.v = s.hart.v ∧ t.hart.brim = s.hart.brim ∧
      ∀ b : Nat, readCell t.mem b =
        match (List.range total).reverse.find? fun k => on k && q k && decide (loc k ≤ b) && decide (b < loc k + n) with
        | some k => (BitVec.ofNat 64 (s.hart.elemAt false d.toNat aw k)).extractLsb' (8 * (b - loc k)) 8
        | none => readCell s.mem b
    let traps := fun (k : Nat) (left : State → Prop) => ∃ u, (∀ c x, fault k = some (c, x) →
        exec i s = .next (u.trap ⟨c, s.hart.pc, x, BitVec.ofNat 6 (group k), BitVec.ofNat 32 (place k)⟩)) ∧ left u ∧
      (∀ r, u.x r = s.x r) ∧ u.hart.m = s.hart.m ∧ u.hart.convoys = [] ∧ u.hart.csr.cvret = s.hart.csr.cvret ∧
      u.hart.csr.ffx = s.hart.csr.ffx ∧ u.hart.csr.fpctl = s.hart.csr.fpctl
    (∀ r scaled bounded, shape = .indexed r scaled bounded → load = true → r = d → w ≤ 32) →
    ((∀ k, on k = true → fine k) →
      (load = true → ∃ t, VectorCompletes i s t v 0 ∧ loaded t total ∧ t.hart.csr.ffx = BitVec.ofNat 64 s.hart.vmax) ∧
      (load = false → ∃ t, VectorCompletes i s t v 0 ∧ stored t (fun _ => true) ∧ t.hart.csr.ffx = s.hart.csr.ffx)) ∧
    (∀ k, on k = true → fault k ≠ none → (∀ j < k, on j = true → fine j) →
      (load = true → (∃ j < k, on j = true) →
        ∃ t, VectorCompletes i s t v 0 ∧ loaded t k ∧ t.hart.csr.ffx = BitVec.ofNat 64 (place k)) ∧
      (load = true → (∀ j < k, on j = false) → traps k fun u => loaded u 0) ∧
      (load = false → traps k fun u => stored u fun j => decide (group j < group k))))
/-! ## Events of the cores (R71, R79, R100, R113, R116, R143, R164 to R168, R186, R196, R199 to R202, R218, R223, R229, R230,
R243, R246, R262, R276, R281, R288, R289, R325, R326, R330, R339, R362) -/

/-- The event that ends an instruction's wait performs exactly what the instruction performs when it has nothing left to
wait for: `s0` is the hart of the event with its wait ended, and `t` what the instruction then makes of it, every wait
ending at once; what each instruction leaves when waits are left open stands with its own statement. Where the hart does
not wait for an instruction of its kind, such an event changes nothing: that is the model's choice (assumption log 4). A `launch` goes on likewise once every
convoy of the hart has completed and no launch of it is pending. With waits left open such an instruction only begins its
wait when it is executed. -/
def Obligations.EventsEndWaits : Prop :=
  (
  ∀ (s t : State) (h : HartId) (i : Instr),
    let u := s.focus h
    let s0 := { u with hart := { u.hart with wait := none } }
    u.hart.wait = some i →
    (∀ d c a, i = .csrr d c ∨ i = .csrw d c a ∨ i = .csrs d c a ∨ i = .csrc d c a → csrAllowed u.hart.mode c = true) →
    let ends := fun (e : HartId → Instr) (kind : Instr → Bool) =>
      (kind i = true → u.awake = true → s.lag = false → exec i s0 = .next t → t ≠ s0 → t.hart.wait = none →
        exec (e h) s = .next (t.focus s.hart.id)) ∧
      (kind i = false → exec (e h) s = .next (u.focus s.hart.id))
    (ends .loadDataReturn isLoad ∧ ends .releaseStorePerform isRelease ∧ ends .nearMemoryAtomic isAtomic ∧
      ends .fenceDone isFence ∧ ends .icsyncDone isIcsync) ∧
    (ends .matrixPost isMatrixPost ∧ ends .mtvPost isMtv ∧ ends .mshapeApply isMshape ∧ ends .msyncDone isMsync) ∧
    (ends .engineEnqueue isEngine ∧ ends .stctlDone isStctl ∧ ends .awaddContribution isAwadd ∧
      ends .carriveArrival isCarrive ∧ ends .stripHandout isFarmnext ∧ ends .retireLeave isRetire) ∧
    (ends .vcfgReshape isVcfg ∧ ends .bsyncDone isBsync ∧ ends .csrWriteApply isCsrWrite ∧
      ends .fpctlWrite (writesCsr 0x000) ∧ ends .ffxWrite (writesCsr 0x003) ∧ ends .bsumWrite (writesCsr 0x012) ∧
      ends .ptbaseWrite (writesCsr 0x109) ∧ ends .registerWrite isOtherWrite) ∧
    (ends .fbtailWrite (writesCsr 0x303) ∧ ends .fbbaseWrite (writesCsr 0x300) ∧ ends .fbsizeWrite (writesCsr 0x301) ∧
      ends .xinvComplete (writesCsr 0x306) ∧ ends .xinvPage (u.xinvWrite false) ∧ ends .xinvAll (u.xinvWrite true) ∧
      ends .spbaseWrite (writesCsr 0x311) ∧ ends .spsizeWrite (writesCsr 0x312) ∧ ends .bsaveWrite (writesCsr 0x323) ∧
      ends .pwrcapWrite (writesCsr 0x340) ∧ ends .stabaseWrite (writesCsr 0x330) ∧ ends .stalimitWrite (writesCsr 0x331)) ∧
    (ends .wstatRead (readsCsr 0x203) ∧ ends .cerrRead (readsCsr 0x204) ∧ ends .fcstatRead (readsCsr 0x313) ∧
      ends .acdataRead (readsCsr 0x321) ∧ ends .brstatRead (readsCsr 0x322) ∧ ends .stcdataRead (readsCsr 0x333) ∧
      ends .pwrstatRead (readsCsr 0x341)) ∧
    (∀ d a, i = .launch d a → u.hart.live = true → u.hart.still = true → (∀ l ∈ u.ctl.launches, l.hart ≠ some (h, d)) →
      s.lag = false → exec i s0 = .next t → exec (.launchHandoff h) s = .next (t.focus s.hart.id))) ∧
  ∀ (s : State) (i : Instr), s.lag = true → s.hart.still = true →
    ([isLoad, isRelease, isAtomic, isFence, isIcsync, isMatrixPost, isMtv, isMshape, isMsync, isEngine, isStctl, isAwadd,
      isCarrive, isVcfg, isBsync, isFarmnext, isRetire].any fun kind => kind i) = true → Waits i s
/-- R116, R186, R199, R200, R202, R262: `pause` expires; a hart passed over six times is the one that issues next; a
sleeping hart is clock-gated and a core whose occupied places all sleep is power-gated and counted, where WGATE and
WPOWER allow it; a hart whose watched word no write has reached since it last read it does not wake, while any write of the
word, the same value included, makes its check due; a wake executes the wait again, with the hart's clocks and its core's
power back; a walk that a waiting instruction needs ends. R201, R243, R276, R330,
R414: a residency report is sent once per sleep and counted, and raises WAITREP where the farm asks for it, once the
convoys in flight have retired; a posted store whose earlier overlapping ones are performed, and before which no load is
in flight, writes its bytes and nothing else; a failed walker drops its cache and is reported; a read of a DRAM word that
fails is an uncorrectable error of that word, which is reported with the place code of a failed read and the address of
the element. That a wake restores clock and power at once, that the timers expire when their events are due, that an event
out of its conditions changes nothing, and the kind, subject and value of a failed walker's EVENT, are the model's choices
(assumption logs 39, 86, 4 and 61). -/
def Obligations.CoreEvents : Prop :=
  (
  ∀ (s : State) (h : HartId),
    let u := s.focus h
    let acts := fun (i : Instr) (t : State) => exec i s = .next (t.focus s.hart.id)
    acts (.pauseExpiry h) { u with hart := { u.hart with paused := false } } ∧
    ((s.place h).live = true → 6 ≤ (s.place h).passed → exec (.issueFairness h) s = .next u) ∧
    ((s.place h).passed < 6 → exec (.issueFairness h) s = .next s) ∧
    (u.hart.live = true → u.hart.wait ≠ none → acts (.translationWalkDone h) { u with hart := { u.hart with walked := true } }) ∧
    (∀ z, u.hart.sleep = some z → u.hart.live = true →
      (u.core.wgate ≠ 0 → acts (.clockGate h) { u with hart := { u.hart with sleep := some { z with clockGated := true } } }) ∧
      (u.core.wgate = 0 → acts (.clockGate h) u)) ∧
    (∀ c : BitVec 7, let k := s.cores[c.toNat]'c.isLt
      let asleep := ∀ p : BitVec 2, (s.place (c ++ p)).live = true → (s.place (c ++ p)).sleep ≠ none
      (k.wpower ≠ 0 → k.powerGated = false → asleep →
        ∃ n : BitVec 16, n.toNat = min (k.powergates.toNat + 1) 0xFFFF ∧
          exec (.powerGate c) s = .next { s with
            cores := s.cores.set c.toNat { k with powerGated := true, powergates := n } c.isLt }) ∧
      (k.wpower = 0 ∨ k.powerGated = true ∨ ¬asleep → exec (.powerGate c) s = .next s)) ∧
    (∀ z, u.hart.sleep = some z → z.raising = false → z.seen = u.look z.watch z.loc → acts (.waitWake h) u) ∧
    (∀ (w : Watch) (base l : Nat) (d : List Byte), (∃ a e, w = .gen a e) ∨ (∃ a v, w = .ne a v) → (∃ p ∈ u.watched, p.1 = base) →
      base < l + d.length → l < base + 32 → d ≠ [] → (u.writeLoc l d).look w base ≠ u.look w base) ∧
    (∀ z, u.hart.sleep = some z → u.hart.live = true → u.spilled u.hart = false → u.stalled (.hart u.hart.id) = false →
      z.raising = false → z.seen ≠ u.look z.watch z.loc →
      let c := coreOf u.hart.id
      let v := { u with
        hart := { u.hart with sleep := some { z with clockGated := false } }
        cores := u.cores.set c.toNat { u.core with powerGated := false } c.isLt }
      (∀ a b sc t, z.watch = .gen (u.x a) ((u.x b).extractLsb' 0 32) → u.hart.busyX [a, b] = false →
        exec (.waitGen a b sc) v = .next t → acts (.waitWake h) t) ∧
      (∀ a b sc t, z.watch = .ne (u.x a) (u.x b) → u.hart.busyX [a, b] = false →
        exec (.waitNe a b sc) v = .next t → acts (.waitWake h) t) ∧
      (∀ a b t, z.watch = .slot (u.x a) ((u.x b).extractLsb' 0 32) → u.hart.busyX [a, b] = false →
        exec (.cwait a b) v = .next t → acts (.waitWake h) t) ∧
      (∀ f, z.watch = .gbar → u.farmOf u.hart = some f →
        (f.barrier < u.hart.round → acts (.waitWake h) { v with
          hart := { v.hart with sleep := some { z with clockGated := false, loc := 0, seen := .quiet } } }) ∧
        (u.hart.round ≤ f.barrier → v.unhindered 4 [] →
          ∃ t, acts (.waitWake h) t ∧ v.fellThrough t 4 ∧ (∀ r, t.x r = u.x r) ∧
            ({ v with hart := { v.hart with sleep := none } }).onlyXs t)))) ∧
  (
  ∀ (s : State) (h : HartId),
    let u := s.focus h
    let acts := fun (i : Instr) (t : State) => exec i s = .next (t.focus s.hart.id)
    (∀ z, u.hart.sleep = some z → u.hart.live = true → u.spilled u.hart = false → u.stalled (.hart u.hart.id) = false →
      u.plat.portUp = true →
      let addr : Word × Word := match z.watch with
        | .gen a _ => (a, 0)
        | .ne a _ => (a, 1)
        | .slot k _ => (k, 2)
        | .gbar => (0, 3)
      let c := coreOf u.hart.id
      let raised := fun (v : State) => ({ v with cores := v.cores.set c.toNat { v.core with powerGated := false } c.isLt }).trap
        ⟨.waitrep, u.hart.pc, addr.1, 0, 0xFFFFFFFF⟩
      (z.raising = true → acts (.waitWake h) (if u.hart.convoys = [] then raised u else u)) ∧
      (z.reported = true ∨ u.core.wreport = 0 → acts (.residencyReport h) u) ∧
      (z.reported = false → u.core.wreport ≠ 0 → ∃ n : BitVec 16, n.toNat = min (u.core.reports.toNat + 1) 0xFFFF ∧
        let sent := fun (raising : Bool) => { u with
          hart := { u.hart with sleep := some { z with reported := true, raising := raising } }
          cores := u.cores.set c.toNat { u.core with reports := n } c.isLt
          plat := { u.plat with sent := u.plat.sent ++
            [Message.event 0x0013 (u.hart.id.setWidth 32) [u.hart.csr.farmid, u.hart.pc, addr.1, addr.2]] } }
        (∀ f, z.watch ≠ .gbar → u.farmOf u.hart = some f → f.record.control.getLsbD 63 = true →
          acts (.residencyReport h) (if u.hart.convoys = [] then raised (sent true) else sent true)) ∧
        (z.watch = .gbar ∨ (∀ f, u.farmOf u.hart = some f → f.record.control.getLsbD 63 = false) →
          acts (.residencyReport h) (sent false).recheck))) ∧
    (∀ (n : Nat) (p : PostedStore), u.hart.stores[n]? = some p → Memory.wf s.mem = true →
      (∀ q : PostedStore, q.afresh = false → u.storeLoc q = some q.loc) ∧ ∀ at_ : Nat, u.storeLoc p = some at_ →
      (∀ (m : Nat) (q : PostedStore) (l : Nat), m < n → u.hart.stores[m]? = some q → u.storeLoc q = some l →
        l + q.data.length ≤ at_ ∨ at_ + p.data.length ≤ l) →
      ((∃ c ∈ u.hart.convoys, c.loads = true ∧ c.order < p.order) → acts (.storePerformed h n) u) ∧
      ((∀ c ∈ u.hart.convoys, c.loads = true → p.order ≤ c.order) → ∃ t, acts (.storePerformed h n) t ∧ t.readLoc at_ p.data.length = p.data ∧ s.sameMemoryBut t at_ p.data.length ∧
        t.hart = { u.hart with stores := u.hart.stores.eraseIdx n } ∧ t.parked = u.parked)) ∧
    (∀ w : BitVec 5, s.plat.portUp = true →
      ((s.walkers[w.toNat]'w.isLt).failed = false → ∃ (t : State) (kind : BitVec 16), exec (.walkerFailure w) s = .next t ∧
        t.walkers = s.walkers.set w.toNat ⟨true, []⟩ w.isLt ∧ t.plat.sent = s.plat.sent ++ [.event kind 0xFFFFFFFF [w.setWidth 64]] ∧
        t.hart = s.hart ∧ t.parked = s.parked ∧ t.mem = s.mem) ∧
      ((s.walkers[w.toNat]'w.isLt).failed = true → exec (.walkerFailure w) s = .next s)) ∧
    (∀ l : Nat, (dramBytes ≤ l → acts (.failedRead h l) u) ∧
      (let word := l / 32 * 32
       let b := ({ u with badUnits := word :: u.badUnits, failing := some word }).brimGroup groupsLeft
       let unseen := b.plat.sent = u.plat.sent ∧ b.plat.held = u.plat.held ∧ b.plat.lost = u.plat.lost
       l < dramBytes → touchesBad u word 1 = false → (unseen → acts (.failedRead h l) u) ∧
        (¬unseen → acts (.failedRead h l) { b with badUnits := b.badUnits.filter fun v => decide (v ≠ word), failing := none })) ∧
      ∀ (v : State) (n : Nat) (reader : HartId), l < dramBytes → v.plat.portUp = true → v.failing = some (l / 32 * 32) →
        v.badUnits = [l / 32 * 32] → v.poisoned = [] → 0 < n →
        v.reportErrors (some reader) l n = { v with plat := { v.plat with sent := v.plat.sent ++
          [.event 0x0020 (BitVec.ofNat 32 (stackOf l)) [10, BitVec.ofNat 64 (v.homedPa l), reader.setWidth 64]] } }))

/-! ## The farm controller (R270, R273, R279 to R301) -/

/-- R279, R281, R284 to R287, R293, R297: the oldest launch handed over is judged, and its hart or its message answered;
a waiting farm whose dependence words have reached their generations becomes runnable; a farm that has waited is
promoted; the farm of highest effective priority, the earliest among equals, is served; and a placed hart starts in the
state of R287. Which free places the harts take is the device's choice. That the ACCEPT of a hart's launch has a free tag,
that a farm has waited long enough when its event is due, and that an event out of its conditions changes nothing, are the
model's choices (assumption logs 57, 86 and 4). -/
def Obligations.FarmsAreServed : Prop :=
  ∀ (s : State), s.plat.portUp = true →
    (∀ (l : Launch) (ls : List Launch), s.ctl.launches = l :: ls →
      let judged := fun (v : Word) (farms : List Farm) =>
        (l.hart = none → ∃ t, exec .launchAccept s = .next t ∧ t.ctl.launches = ls ∧ t.ctl.farms = farms ∧
          t.plat.sent = s.plat.sent ++ [.accept l.tag v] ∧ t.hart = s.hart ∧ t.parked = s.parked ∧ t.mem = s.mem) ∧
        (∀ d a, l.hart = some (s.hart.id, d) → s.hart.wait = some (.launch d a) → s.hart.live = true → s.straight 4 →
          ∃ (t : State) (tag : BitVec 32), exec .launchAccept s = .next t ∧ t.ctl.launches = ls ∧ t.ctl.farms = farms ∧
            t.plat.sent = s.plat.sent ++ [.accept tag v] ∧ s.wroteX t d v ∧ s.fellThrough t 4 ∧ t.hart.wait = none ∧ t.mem = s.mem)
      (l.record = none → judged 0xFFFFFFFFFFFFFFFF s.ctl.farms) ∧
      (∀ r block, l.record = some (r, block) →
        (r.malformed = true → judged 0xFFFFFFFFFFFFFFFF s.ctl.farms) ∧
        (r.malformed = false → r.unsatisfiable = true → judged 0xFFFFFFFFFFFFFFFD s.ctl.farms) ∧
        (r.malformed = false → r.unsatisfiable = false → s.ctl.freeEntry = none → judged 0xFFFFFFFFFFFFFFFE s.ctl.farms) ∧
        (∀ e, r.malformed = false → r.unsatisfiable = false → s.ctl.freeEntry = some e →
          judged (BitVec.ofNat 64 (s.ctl.accepted % 2 ^ 26 * 64 + e.toNat)) (s.ctl.farms ++ [l.farm r block e s.ctl])))) ∧
    (∀ (e : BitVec 6) (f : Farm), s.farmAt e = some f →
      (f.phase = .waiting → f.failing = none → s.stalled (.farm e) = false →
        (∀ u v, s.depOf f f.record.dep0 f.record.gen0 = (.reached, u) → u.depOf f f.record.dep1 f.record.gen1 = (.reached, v) →
          exec (.dependenceReached e) s = .next (v.onFarm e fun g => { g with phase := .runnable })) ∧
        (∀ u, s.depOf f f.record.dep0 f.record.gen0 = (.notYet, u) → exec (.dependenceReached e) s = .next u)) ∧
      (∀ (va : Word) (d : List Byte) (u : State) (expected : BitVec 32), va ≠ 0 →
        s.ctlRead f.ptbase f.mode va 16 = (.ok d, u) →
        s.depOf f va expected = (if (BitVec.ofNat 32 (valueOf ((d.drop 8).take 4)) - expected).toNat < 2 ^ 31 then Dep.reached
          else Dep.notYet, u)) ∧
      (s.hungry f = true ∧ s.pkg.fstarve ≠ 0 ∧ f.priority ≠ 3 →
        exec (.starvationPromotion e) s = .next (s.onFarm e fun g => { g with priority := g.priority + 1 })) ∧
      (s.hungry f = false ∨ s.pkg.fstarve = 0 ∨ f.priority = 3 → exec (.starvationPromotion e) s = .next s)) ∧
    ((∀ f ∈ s.ctl.farms, s.hungry f = false) → exec .farmServe s = .next s) ∧
    (∀ (f : Farm) (off : Nat) (cores : List (BitVec 7)), f ∈ s.ctl.farms → s.hungry f = true → s.farmAt f.entry = some f →
      (∀ g ∈ s.ctl.farms, s.hungry g = true → g ≠ f →
        g.priority.toNat < f.priority.toNat ∨ g.priority = f.priority ∧ f.order < g.order) →
      f.slices = [] → s.plan f (s.wanted f) = some (off, cores) →
      ∃ (t : State) (new : List Starting), exec .farmServe s = .next t ∧ t.ctl.starting = s.ctl.starting ++ new ∧
        (∀ n ∈ new, n.farm = f.entry ∧ coreOf n.hart ∈ cores ∧ (s.place n.hart).live = false) ∧
        (t.farmAt f.entry).map (fun g => (g.started, g.offset)) =
          some (if f.record.together then cores.length else f.started + cores.length, some off) ∧
        t.hart = s.hart ∧ t.parked = s.parked) ∧
    (∀ (st : Starting) (rest : List Starting) (f : Farm), s.ctl.starting = st :: rest → s.farmAt st.farm = some f →
      f.block.length = 128 → Memory.wf s.mem = true →
      let now := if f.record.together then s.ctl.starting.filter (fun n => decide (n.farm = st.farm)) else [st]
      (now.map Starting.hart).Nodup → ∃ t, exec .hartStart s = .next t ∧
        t.ctl.starting = s.ctl.starting.filter (fun n => decide (n ∉ now)) ∧
        ∀ n ∈ now,
          let h := t.place n.hart
          let c := coreOf n.hart
          let win := scalarBase c.toNat + 16384 * (n.hart.toNat % 4)
          (∃ tag : BitVec 48, h = { Hart.reset n.hart with
              live := true, mode := f.mode, pc := f.record.pc, x := h.x, rank := n.rank, share := n.share, serial := h.serial
              csr := { Csrs.reset with
                farmid := f.farmid, strips := BitVec.ofNat 64 f.record.strips, tvec := f.tvec, tdeleg := f.tdeleg
                ptbase := f.ptbase, ctxid := tag.setWidth 64 } } ∧
            ∀ r, (s.cores[c.toNat]'c.isLt).regions.find? (fun r => decide (r.farm = st.farm)) = some r → tag = r.tag) ∧
          (∀ r, h.get r = if r = 1 then 0xFFFFFFF300000000 else if r = 2 then BitVec.ofNat 64 n.rank
            else if r = 3 then BitVec.ofNat 64 f.record.wanted else if r = 28 then n.vs else if r = 29 then f.record.link
            else if r = 30 then 0xFFFFFFF300004000 else 0) ∧
          t.readLoc win 128 = f.block ∧ ∀ k : Nat, 128 ≤ k → k < 16384 → readCell t.mem (win + k) = 0)
/-- R290, R295, R298, R300, R301, R415: a slice that is spilled leaves its core to its farm's list of slices and is
counted; a farm with nothing left to do contributes 64 bytes to its completion word and leaves the table with its EVENT;
a farm with a failed slice or a halted hart ends with the EVENT of its cause, and none of its harts stays. That a farm which
fails leaves the table, and that an event out of its conditions changes nothing, are the model's choices (assumption logs
48 and 4). -/
def Obligations.FarmsEnd : Prop :=
  ∀ (s : State) (e : BitVec 6) (f : Farm), s.farmAt e = some f → s.plat.portUp = true →
    (∀ k ∈ s.parked, k.id ≠ s.hart.id) →
    (∀ p : Spill, s.ctl.spilling = [p] → p.farm = e → s.works = [] → s.remote = [] → s.migrations = [] → s.ctl.launches = [] →
      ∃ (t : State) (q : Slice), exec .sliceSpillDone s = .next t ∧ t.ctl.spilling = [] ∧
        t.pkg.preemptions.toNat = min (s.pkg.preemptions.toNat + 1) (2 ^ 32 - 1) ∧
        (t.farmAt e).map Farm.slices = some (f.slices ++ [q]) ∧ q.core = p.core ∧ q.slot = p.slot ∧
        q.harts.map (fun h => (h.id, h.x, h.v, h.m)) = (s.sliceHarts p.core f).map (fun h => (h.id, h.x, h.v, h.m)) ∧
        (∀ k ∈ t.harts, k.csr.farmid = f.farmid → coreOf k.id ≠ p.core) ∧
        ∀ r ∈ (t.cores[p.core.toNat]'p.core.isLt).regions, r.farm ≠ e) ∧
    (s.finished f = false → exec (.farmComplete e) s = .next s) ∧
    (s.finished f = true →
      let event := Message.event 0x0010 0xFFFFFFFF [f.farmid, BitVec.ofNat 64 f.unhanded]
      (f.record.completion = 0 → ∃ t, exec (.farmComplete e) s = .next t ∧ t.farmAt e = none ∧
        t.plat.sent = s.plat.sent ++ [event] ∧ t.hart = s.hart ∧ t.parked = s.parked ∧ t.mem = s.mem) ∧
      (∀ (l : Nat) (u : State), f.record.completion ≠ 0 → s.ctlReach f.ptbase f.mode true f.record.completion = (.ok l, u) →
        Memory.wf u.mem = true → u.plat = s.plat → u.readFails l 16 = false →
        ∃ t, exec (.farmComplete e) s = .next t ∧ t.farmAt e = none ∧ t.plat.sent = s.plat.sent ++ [event] ∧
          t.arrival l = contributed (u.arrival l) 64 ∧ u.sameMemoryBut t l 16)) ∧
    (∀ (cause : BitVec 12) (subject : BitVec 32), s.migrations = [] →
      f.failing = some (cause, subject) ∨
        (f.failing = none ∧ cause = 1 ∧ ∃ h, (s.hartsIn f).find? (fun h => h.halted) = some h ∧ subject = h.id.setWidth 32) →
      ∃ t, exec (.farmFail e cause) s = .next t ∧ t.farmAt e = none ∧
        t.plat.sent = s.plat.sent ++ [.event 0x0011 subject [f.farmid, cause.setWidth 64]] ∧
        ∀ k ∈ t.harts, k.csr.farmid ≠ f.farmid) ∧
    (f.failing = none → (∀ h ∈ s.hartsIn f, h.halted = false) → ∀ cause, exec (.farmFail e cause) s = .next s)
/-! ## Engine work (R343 to R364, R402 to R407) -/

/-- R343, R346 to R348, R350, R352 to R355: a chunk of a copy is read whole and then written, where rows share a byte the
one of highest number standing; it contributes its bytes to the arrival word, its bit is set in the mask of chunk mode, and
the copy ends with its last chunk; a record of a walk writes its pooled row and its count of defaulted indexes and
contributes the row's bytes, an empty walk contributes 0 and ends, and a record that breaks R352 aborts the walk. R348: a
byte of a scratchpad outside every region of the captured tag aborts the work, as does any finding that is not replayable
and a failed request. R12, R15: a stack runs at most sixteen copies and one walk at once. A write of a chunk to another
package is delivered once it is answered. Stated for work with no arrival word and with one in a window of its hart. That a
chunk goes by one step, with its translation, is the model's choice (assumption log 43). -/
def Obligations.CopiesAndWalksProceed : Prop :=
  ∀ (s : State) (id part : Nat) (w : Work) (word : Option Nat), s.workOf id = some w → w.informs word →
    s.stalled (.engine id part) = false → Memory.wf s.mem = true → s.plat.portUp = true →
    let b := s.beginWork id
    let o := Owner.engine id part
    let progress := fun (t : State) (ps : List Progress) (job : List Progress → Job) =>
      t.workOf id = if (ps.set part .done).all (fun p => decide (p = .done)) then none
        else some { w with begun := true, job := job (ps.set part .done) }
    let ends := fun (e : EStop) => (∀ lvl va, e ≠ .invalid lvl va) ∧ e ≠ .wait
    let running := fun (q : Queue) =>
      s.works.filter fun v => decide (v.stack = w.stack) && v.begun && decide (v.job.queue = some q)
    (∀ (need : Need) (va : Word) (n l : Nat), canonical va = true → windowLoc w.issuer.hart va = some l →
      (s.tagged w.issuer.tag l n = true → s.enginePlace w need va n = (.ok ⟨va, n, .here l, none⟩, s)) ∧
      (s.tagged w.issuer.tag l n = false → s.enginePlace w need va n = (.error .owner, s))) ∧
    (∀ (d a : Word) (k n m : Nat), m ≠ 0 → k + m ≤ n →
      chunkSpans 0 [(d, a, n)] k m = [⟨d + BitVec.ofNat 64 k, a + BitVec.ofNat 64 k, m, []⟩]) ∧
    (∀ c : Copy, w.job = .copy c → c.chunks[part]? = some .todo → (∀ r ∈ c.rows, r.2.2 < 2 ^ 64) →
      let i := Instr.copyChunkDelivery id part
      let n := min 256 (c.total - 256 * part)
      let aborts := fun (u : State) (cause : Word) => ∃ t, exec i s = .next t ∧ u.aborted t w cause []
      let delivered := fun (t : State) => s.contributedTo t word n ∧ progress t c.chunks (fun ps => .copy { c with chunks := ps }) ∧
        ∀ (mk : BitVec 5) (count : Count) (e : Elem), c.chunkMask = some (mk, count, e) → mk ≠ 0 → c.total ≠ 0 →
          s.hart.owner.getD mk.toNat none = some id →
          ∀ k < 8192, (t.hart.mask mk).getLsbD k = true ↔ (s.hart.mask mk).getLsbD k = true ∨
            ∃ j < 2048 / e.width, governing e.width (part * (2048 / e.width) + j) = k
      let writes := s.remote.filter fun r => decide (r.owner = o) && r.kind.isWrite
      (w.begun = false → 16 ≤ (running .copies).length → exec i s = .next s) ∧
      (w.begun = true ∨ (running .copies).length < 16 →
        (writes ≠ [] →
          ((∃ r ∈ writes, r.status = .failed) → aborts b 4) ∧
          ((∀ r ∈ writes, r.status ≠ .failed) → (∃ r ∈ writes, r.status = .sent) → exec i s = .next b) ∧
          ((∀ r ∈ writes, ∃ d, r.status = .answered d) → ∃ t, exec i s = .next t ∧ delivered t ∧ s.wroteToo t [] [] word)) ∧
        (writes = [] → c.total = 0 → ∃ t, exec i s = .next t ∧ delivered t ∧ s.wroteToo t [] [] word) ∧
        (c.total ≠ 0 → (∀ r ∈ s.remote, r.owner ≠ o) →
          let spans := chunkSpans 0 c.rows (256 * part) n
          let from_ := spans.flatMap fun t => spansOf t.src t.len
          let into := spans.flatMap fun t => spansOf t.dst t.len
          let seq := sequence c.rows
          let kept := fun (j : Nat) => ∀ (q : Nat) (e f : Nat × Word × Word), seq[256 * part + j]? = some e → seq[q]? = some f →
            e.1 < f.1 → f.2.1 = e.2.1 → c.chunks[q / 256]? ≠ some .done
          (∀ e s1, State.enginePlaces w ⟨true, false, false⟩ from_ b = (.error e, s1) → ends e → s1.plat.portUp = true →
            aborts s1 e.cause) ∧
          (∀ src s1 e s2, State.enginePlaces w ⟨true, false, false⟩ from_ b = (.ok src, s1) →
            State.enginePlaces w ⟨false, true, false⟩ into s1 = (.error e, s2) → ends e → s2.plat.portUp = true →
            aborts s2 e.cause) ∧
          ∀ (src dst : List Piece) (s1 s2 : State), State.enginePlaces w ⟨true, false, false⟩ from_ b = (.ok src, s1) →
            State.enginePlaces w ⟨false, true, false⟩ into s1 = (.ok dst, s2) → readable src → readable dst →
            totalLen src = totalLen dst → clearOf word (src ++ dst) →
            ∃ t, exec i s = .next t ∧ delivered t ∧
              (∀ j l m : Nat, (locations dst)[j]? = some l → (locations src)[j]? = some m → kept j →
                (∀ k, j < k → (locations dst)[k]? = some l → ¬kept k) → readCell t.mem l = readCell s.mem m) ∧
              ∀ l : Nat, offWord word l → (∀ j : Nat, (locations dst)[j]? = some l → ¬kept j) →
                (∀ p ∈ src ++ dst, p.outsideEntry l) → readCell t.mem l = readCell s.mem l))) ∧
    (∀ v : Walk, w.job = .walk v → v.done[part]? = some .todo →
      let i := Instr.embeddingRecordDone id part
      let at_ := v.records + BitVec.ofNat 64 (64 * part)
      let aborts := fun (u : State) (cause : Word) => ∃ t, exec i s = .next t ∧ u.aborted t w cause []
      let done := fun (t : State) => progress t v.done (fun ps => .walk { v with done := ps })
      (w.begun = false → running .walks ≠ [] → exec i s = .next s) ∧
      (w.begun = true ∨ running .walks = [] →
        (v.count = 0 → ∃ t, exec i s = .next t ∧ s.contributedTo t word 0 ∧ s.wroteToo t [] [] word ∧ done t) ∧
        (∀ e s1, v.count ≠ 0 → b.walkRead w o at_ 64 = (.error e, s1) → ends e → s1.plat.portUp = true → aborts s1 e.cause) ∧
        (∀ (d : Marked) (ps : List Piece) (s1 : State), v.count ≠ 0 → b.walkRead w o at_ 64 = (.ok (d, ps), s1) →
          s1.plat = s.plat →
          (Lookup.ofBytes (d.map Prod.fst) = none → aborts s1 6) ∧
          (∀ (r : Lookup) (is : List Int) (bad : Bool) (rows : List PooledRow) (back out : List Piece) (s2 s3 s4 s5 : State),
            Lookup.ofBytes (d.map Prod.fst) = some r → s1.walkList w o r = (.ok (is, bad), s2) →
            State.walkRows w o r 0 is s2 = (.ok rows, s3) →
            State.enginePlaces w ⟨false, true, false⟩ (spansOf (at_ + 44) 4) s3 = (.ok back, s4) →
            State.enginePlaces w ⟨false, true, false⟩ (spansOf r.out r.outBytes) s4 = (.ok out, s5) →
            writable (back ++ out) → clearOf word (back ++ out) → totalLen back = 4 → Memory.wf s3.mem = true →
            s5.mem = s3.mem → s5.works = b.works →
            let row := (r.row rows (bad || d.any Prod.snd)).map Prod.fst
            totalLen out = row.length → row.length = r.outBytes →
            ∃ t, exec i s = .next t ∧ t.bytesAt out = row ∧
              t.bytesAt back = lowBytes (BitVec.ofNat 64 (is.countP fun i => decide (i < 0 ∨ (r.rows : Int) ≤ i))) 4 ∧
              s3.contributedTo t word row.length ∧ s3.wroteToo t (back ++ out) [] word ∧ done t))))
/-- R356, R358 to R361, R363, R364: the lowest tile of a probe is decided by the first row of R360 that applies, each
outcome is counted, and a miss contributes its bytes; a hit's stored output is replayed, its mask bit set and its bytes
contributed; a fill leaves one entry of its key, which holds the input and the output, and contributes; a probe or fill
with no tile contributes 0; a finding that is not replayable aborts. `u` is the state once the tile's input has been read.
Stated for work with no arrival word and with one in a window of its hart. That a slot holds the input and then the output,
and that a hit is the last use of its entry, are the model's choices (assumption log 46). -/
def Obligations.TilesAreDecided : Prop :=
  ∀ (s : State) (id : Nat) (w : Work) (a : ActJob) (word : Option Nat), s.workOf id = some w → w.job = .act a →
    w.informs word → Memory.wf s.mem = true →
    let b := s.beginWork id
    let asid := w.issuer.ptbase.extractLsb' 52 12
    let event := if a.fill then Instr.fillEntry id else .probeDecision id
    let ends := fun (e : EStop) => (∀ lvl va, e ≠ .invalid lvl va) ∧ e ≠ .wait
    let settled := fun (t : State) (i : Nat) =>
      let tiles := a.tiles.filter fun v => decide (v.index ≠ i)
      let settling := a.settling.filter fun v => decide (v.1.index ≠ i)
      (tiles = [] ∧ settling = [] → t.workOf id = none) ∧
      (¬(tiles = [] ∧ settling = []) → (t.workOf id).map Work.job = some (.act { a with tiles := tiles, settling := settling }))
    (a.tiles = [] → a.settling = [] → s.actTurn w = true → ∃ t, exec event s = .next t ∧ t.workOf id = none ∧
      s.contributedTo t word 0 ∧ s.wroteToo t [] [] word) ∧
    (∀ (t0 : TileJob) (rest : List TileJob) (e : EStop) (s1 : State), a.tiles = t0 :: rest → s.actTurn w = true →
      s.stalled (.engine id t0.index) = false → b.tilePlace w ⟨true, false, false⟩ t0.input a.bytes = (.error e, s1) → ends e →
      s1.plat.portUp = true → ∃ t, exec event s = .next t ∧ s1.aborted t w e.cause []) ∧
    (∀ (t0 : TileJob) (rest : List TileJob) (ps : List Piece) (st : BitVec 4) (s1 : State), a.tiles = t0 :: rest →
      s.actTurn w = true → s.stalled (.engine id t0.index) = false →
      b.tilePlace w ⟨true, false, false⟩ t0.input a.bytes = (.ok (ps, st), s1) →
      let read := State.engineReads w (.engine id t0.index) ps s1
      let u := read.2
      let x := read.1.map Prod.fst
      let named := fun (e : DirEntry) => e.stream = t0.key.extractLsb' 40 16 ∧ e.block = t0.key.extractLsb' 24 16 ∧
        e.tile = t0.key.extractLsb' 0 24 ∧ e.asid = asid
      let counted := fun (t : State) (hits misses forced stale : Nat) => (t.stackAt st).counters.toList =
        [(u.stackAt st).counters[0] + 1, (u.stackAt st).counters[1] + BitVec.ofNat 64 hits,
          (u.stackAt st).counters[2] + BitVec.ofNat 64 misses, (u.stackAt st).counters[3] + BitVec.ofNat 64 forced,
          (u.stackAt st).counters[4] + BitVec.ofNat 64 stale, (u.stackAt st).counters[5]]
      (a.fill = false → u.works = b.works →
        let misses := fun (forced stale : Nat) => ∃ t, exec (.probeDecision id) s = .next t ∧ counted t 0 1 forced stale ∧
          settled t t0.index ∧ (t.stackAt st).dir = (u.stackAt st).dir ∧ u.contributedTo t word a.bytes ∧
          u.wroteToo t [] [] word
        ((∀ e ∈ (u.stackAt st).dir, ¬(named e ∧ e.size = a.bytes ∧ e.fmt = a.fmt)) → misses 0 0) ∧
        (∀ (before after : List DirEntry) (e : DirEntry), (u.stackAt st).dir = before ++ e :: after →
          (∀ k ∈ before, ¬(named k ∧ k.size = a.bytes ∧ k.fmt = a.fmt)) → named e → e.size = a.bytes → e.fmt = a.fmt →
          let stored := u.slotLoc st e
          (e.step ≠ a.step - 1 → misses 0 1) ∧
          (e.step = a.step - 1 → a.cap.toNat ≤ e.replays.toNat → misses 1 0) ∧
          (∀ f, e.step = a.step - 1 → e.replays.toNat < a.cap.toNat → fmtOf a.fmt = .flt f →
            (metricPasses f a.thr x (u.readLoc stored a.bytes) = false → misses 0 0) ∧
            (metricPasses f a.thr x (u.readLoc stored a.bytes) = true →
              ∃ (t : State) (bad : Bool), exec (.probeDecision id) s = .next t ∧ counted t 1 0 0 0 ∧ t.mem = u.mem ∧
                (t.workOf id).map Work.job = some (.act { a with
                  tiles := a.tiles.filter fun v => decide (v.index ≠ t0.index)
                  settling := a.settling ++ [(t0, u.readLoc (stored + a.bytes) a.bytes, bad)] }) ∧
                (t.stackAt st).dir = (u.stackAt st).dir.map (fun k => if k = e then
                  { e with step := a.step, replays := e.replays + 1, lastUse := (u.stackAt st).useClock + 1 } else k))))) ∧
      (∀ (qs : List Piece) (st2 : BitVec 4) (s2 : State), a.fill = true →
        s1.tilePlace w ⟨true, false, false⟩ t0.output a.bytes = (.ok (qs, st2), s2) → 2 * a.bytes ≤ s.arenaBytes →
        s2.pkg = s.pkg → s2.works = b.works →
        let x := State.engineReads w (.engine id t0.index) ps s2
        let y := State.engineReads w (.engine id t0.index) qs x.2
        ∃ (t : State) (e : DirEntry), exec (.fillEntry id) s = .next t ∧ e ∈ (t.stackAt st).dir ∧ named e ∧ e.size = a.bytes ∧
          e.fmt = a.fmt ∧ e.step = a.step ∧ e.replays = 0 ∧ (∀ k ∈ (t.stackAt st).dir, named k → k = e) ∧ settled t t0.index ∧
          let slot := t.slotLoc st e
          let n := x.1.length + y.1.length
          ((∀ l, word = some l → l + 16 ≤ slot ∨ slot + n ≤ l) →
            t.readLoc slot n = (x.1 ++ y.1).map Prod.fst ∧ y.2.contributedTo t word a.bytes ∧
            ∀ k : Nat, offWord word k → ¬(slot ≤ k ∧ k < slot + n) → readCell t.mem k = readCell y.2.mem k))) ∧
    (∀ (tile : Nat) (t0 : TileJob) (out : List Byte) (bad : Bool) (ps : List Piece) (st : BitVec 4) (s1 : State),
      a.settling.find? (fun t => decide (t.1.index = tile)) = some (t0, out, bad) → s.stalled (.engine id tile) = false →
      s.tilePlace w ⟨false, true, false⟩ t0.output a.bytes = (.ok (ps, st), s1) → writable ps → clearOf word ps →
      totalLen ps = out.length →
      ∃ t, exec (.tileSettled id tile) s = .next t ∧ t.bytesAt ps = out ∧ s.wroteToo t ps [] word ∧ settled t tile ∧
        s.contributedTo t word a.bytes ∧
        (a.md ≠ 0 → s.hart.owner.getD a.md.toNat none = some id →
          ∀ k < 8192, (t.hart.mask a.md).getLsbD k = ((s.hart.mask a.md).getLsbD k || decide (k = tile))))
/-- R402, R404 to R406: a collective whose group cannot be used, that another rank has aborted, in which the ranks differ or
B does not divide, or that has waited longer than CTIMEOUT for another rank aborts with its cause, and the rank that finds a
cause tells the others that a route leads to; a rank reads each segment of its buffer once, in an all-gather those of its own shard, and sends it; a replayable fault stalls that
segment alone; a segment with every input there is written with the sum in ring order from rank 0, each step rounded to
FP32, or with the gathered shard; and with its last output byte the rank contributes B, or B/q, and ends. Stated for a last
segment to send or to write, and for work with no arrival word and with one in a window of its hart. That segments are
sent and written by steps, and that cause 0x10 goes before 0x12 where both hold, are the model's choices (assumption log 47),
as is that CTIMEOUT has passed when its event is due (assumption log 86). -/
def Obligations.CollectivesProgress : Prop :=
  ∀ (s : State) (id : Nat) (w : Work) (c : Coll) (word : Option Nat), s.workOf id = some w → w.job = .coll c →
    w.informs word → s.plat.portUp = true → Memory.wf s.mem = true → c.bytes % 256 = 0 →
    let n := c.bytes / 256
    let b := s.beginWork id
    let parts := s.partsOf c
    let i := Instr.collComplete id
    let place := fun (write : Bool) (k : Nat) => State.enginePlaces (w.buffered c) ⟨!write, write, false⟩
      (spansOf (c.addr + BitVec.ofNat 64 (256 * k)) 256) b
    (s.group c.group = none → ∃ t, exec i s = .next t ∧ s.aborted t w 0x11 []) ∧
    (s.pkg.ctimeout = 0 → exec (.collTimeout id) s = .next s) ∧
    (∀ g, s.group c.group = some g → g.rank < g.q →
      let tells := fun (cause : Byte) => if s.ranksReached g = [] then []
        else [Message.collectiveAbort c.group c.name c.ordinal g.rank cause (s.ranksReached g)]
      let missing := (∃ k < g.q, k ≠ g.rank ∧ ∀ p ∈ parts, p.aborted = none → p.rank ≠ k) ∨
        ∃ seg ∈ outSegs c.op c.bytes g.q g.rank, c.out[seg]? = some .todo ∧
          ∃ k ∈ inRanks c.op c.bytes g.q seg, k ≠ g.rank ∧ partOf parts k seg = none
      let present := ∀ k < g.q, k ≠ g.rank → ∃ p ∈ parts, p.aborted = none ∧ p.rank = k
      let alike := ∀ p ∈ parts, p.aborted = none → p.op = c.op ∧ p.bytes = c.bytes ∧ p.fmt = c.fmt
      let ins := inSegs c.op c.bytes g.q g.rank
      let sentAll := c.own.length = n ∧ ∀ k ∈ ins, ∃ d, c.own[k]? = some (some d)
      (s.pkg.ctimeout ≠ 0 → missing → ∃ t, exec (.collTimeout id) s = .next t ∧ s.aborted t w 0x14 (tells 0x14)) ∧
      (¬missing → exec (.collTimeout id) s = .next s) ∧
      (∀ cause, parts.findSome? RankData.aborted = some cause →
        ∃ t, exec i s = .next t ∧ s.aborted t w (cause.setWidth 64) []) ∧
      (parts.findSome? RankData.aborted = none →
        (sentAll → present →
          (¬alike → ∃ t, exec i s = .next t ∧ s.aborted t w 0x10 (tells 0x10)) ∧
          (alike → c.op ≠ 0 → c.bytes % (256 * g.q) ≠ 0 → ∃ t, exec i s = .next t ∧ s.aborted t w 0x12 (tells 0x12))) ∧
        (∀ k ∈ ins, c.own.length = n → c.own[k]? = some none → (∀ j ∈ ins, j ≠ k → ∃ d, c.own[j]? = some (some d)) →
          s.stalled (.engine id k) = false → ¬present →
          (∀ (ps : List Piece) (u : State), place false k = (.ok ps, u) → readable ps → u.works = b.works → u.plat = s.plat →
            (∀ p ∈ ps, ∀ l, p.place = .here l → u.readFails l p.len = false) →
            ∃ (t : State) (own : Marked), exec i s = .next t ∧ own.map Prod.fst = u.bytesAt ps ∧
              (t.workOf id).map Work.job = some (.coll { c with own := c.own.set k (some own) }) ∧
              t.plat.sent = s.plat.sent ++ if t.ranksReached g = [] then [] else
                [.collectivePart c.group c.name c.ordinal g.rank c.op c.bytes c.fmt k (u.bytesAt ps) (t.ranksReached g)]) ∧
          (∀ (lvl : Nat) (va : Word) (u : State), place false k = (.error (.invalid lvl va), u) → u.works = b.works →
            ∃ t, exec i s = .next t ∧ t.stalled (.engine id k) = true ∧ (t.workOf id).map Work.job = some (.coll c))) ∧
        (∀ (k : Nat) (xs : Nat → List Byte) (ps : List Piece) (u : State), sentAll → present → alike →
          (c.op ≠ 0 → c.bytes % (256 * g.q) = 0) → k ∈ outSegs c.op c.bytes g.q g.rank → c.out[k]? = some .todo →
          (∀ j ∈ outSegs c.op c.bytes g.q g.rank, j ≠ k → c.out[j]? = some .done) → s.stalled (.engine id k) = false →
          (∀ r, (xs r).length = 256) → (∀ r ∈ inRanks c.op c.bytes g.q k, c.input g parts r k = some (xs r)) →
          place true k = (.ok ps, u) → writable ps → totalLen ps = 256 → clearOf word ps → u.works = b.works → u.ranks = s.ranks →
          let F := collElem c.fmt
          let size := F.width / 8
          let at_ := fun (d : List Byte) (e : Nat) => valueOf ((d.drop (e * size)).take size)
          let widen := fun (x : Nat) => (toFloat .fp32 0 false (decodeF F x)).1
          ∃ t, exec i s = .next t ∧ t.workOf id = none ∧ u.wroteToo t ps [] word ∧ (t.partsOf c) = [] ∧
            u.contributedTo t word (if c.op = 2 then c.bytes / g.q else c.bytes) ∧
            (c.op = 1 → t.bytesAt ps = xs (k / (c.bytes / g.q / 256))) ∧
            (c.op ≠ 1 → ∀ e < 256 / size, ∃ v : Nat → Nat, v 0 = widen (at_ (xs 0) e) ∧
              (∀ r, r + 1 < g.q → v (r + 1) = (fAdd .fp32 0 (v r) (widen (at_ (xs (r + 1)) e))).1) ∧
              at_ (t.bytesAt ps) e = (toFloat F 0 false (decodeF .fp32 (v (g.q - 1)))).1))))
/-! ## The fabric (R251, R321, R325, R334, R335, R389, R396 to R400, R404) -/

/-- R251, R334, R335, R389, R395, R396, R400: a UALink port with two or three working lanes runs at x2 and one with
fewer is down; a Spinel port and a crown-to-stack link that fail stay down; a failed cluster link fails the
cluster-placed farm on it; each is reported once; and the DRAM scheduler counts its changes of ratio and its deferrals.
R16, R321, R325, R331, R397, R399, R404: requests that come in over UALink and Spinel are performed at their DRAM word and
answered, with an error for an address outside it, for data that hold an error and for a misaligned atomic; a write of data
that its sender marks poisoned marks its words; a package with no Spinel port up takes nothing in over Spinel; the answer of
a request that this package sent settles it, and its failure is reported and ends it. Choices of the model: a lane that
fails twice and events whose conditions fail change nothing (assumption log 4), the subject of a failed cluster link and the
stores that it loses (62), how an incoming write says that its data are bad (29), and that a read of bad data is answered
with an error (72). -/
def Obligations.LinksFail : Prop :=
  (
  ∀ (s : State), s.plat.portUp = true →
    let event := fun (subject : BitVec 32) (code : Word) => s.plat.sent ++ [Message.event 0x0022 subject [code]]
    (∀ (p : BitVec 5) (lane : BitVec 2) (i : Fin 18), i.val = p.toNat →
      let old := s.plat.lanesLost[i]
      let new := old ||| (1#4 <<< lane.toNat)
      let out := (List.range 4).countP fun k => new.getLsbD k
      let lost := { s.plat with lanesLost := s.plat.lanesLost.set i.val new i.isLt }
      let up := s.pkg.ualinkUp.getLsbD i
      let bit : BitVec 18 := 1 <<< i.val
      (new = old → exec (.ualinkLaneFailure p lane) s = .next s) ∧
      (new ≠ old → up = false → exec (.ualinkLaneFailure p lane) s = .next { s with plat := lost }) ∧
      (new ≠ old → up = true → 3 ≤ out → exec (.ualinkLaneFailure p lane) s = .next { s with
        plat := { lost with sent := event (BitVec.ofNat 32 i.val) 0 }
        pkg := { s.pkg with ualinkUp := s.pkg.ualinkUp &&& ~~~bit, ualinkX2 := s.pkg.ualinkX2 &&& ~~~bit } }) ∧
      (new ≠ old → up = true → out ≤ 2 → s.pkg.ualinkX2.getLsbD i = false →
        exec (.ualinkLaneFailure p lane) s = .next { s with
          plat := { lost with sent := event (BitVec.ofNat 32 i.val) 0 }
          pkg := { s.pkg with ualinkX2 := s.pkg.ualinkX2 ||| bit } }) ∧
      (new ≠ old → up = true → out ≤ 2 → s.pkg.ualinkX2.getLsbD i = true →
        exec (.ualinkLaneFailure p lane) s = .next { s with plat := lost })) ∧
    (∀ p : BitVec 3,
      (s.pkg.spinelUp.getLsbD p.toNat = true → exec (.spinelLinkFailed p) s = .next { s with
        pkg := { s.pkg with spinelUp := s.pkg.spinelUp &&& ~~~(1#8 <<< p.toNat) }
        plat := { s.plat with sent := event (p.setWidth 32) 1 } }) ∧
      (s.pkg.spinelUp.getLsbD p.toNat = false → exec (.spinelLinkFailed p) s = .next s)) ∧
    (∀ (c : BitVec 5) (a b : BitVec 2), a.toNat < b.toNat →
      let k := s.clusters[c.toNat]'c.isLt
      let crosses := fun (h : HartId) (p : PostedStore) => ∃ x y : BitVec 2, (x = a ∧ y = b ∨ x = b ∧ y = a) ∧
        coreOf h = c ++ x ∧ scratchBase (c ++ y : BitVec 7).toNat ≤ p.loc ∧ p.loc < scratchBase (c ++ y : BitVec 7).toNat + scratchBytes
      let does := fun (i : Instr) =>
        ((a, b) ∈ k.failedLinks → exec i s = .next s) ∧
        ((a, b) ∉ k.failedLinks → ((s.hart :: s.parked).map Hart.id).Nodup → ∃ t, exec i s = .next t ∧ t.mem = s.mem ∧
          t.clusters = s.clusters.set c.toNat { k with failedLinks := k.failedLinks ++ [(a, b)] } c.isLt ∧
          t.plat = { s.plat with sent := event (c.setWidth 32) 2 } ∧
          (k.owner = none → t.ctl = s.ctl) ∧
          (∀ e, k.owner = some e → t.ctl.farms = s.ctl.farms.map fun f =>
            if f.entry = e ∧ f.failing = none then { f with failing := some (2, 0xFFFFFFFF) } else f) ∧
          ∀ h, (s.place h).live = true → ∀ p, p ∈ (t.place h).stores ↔ p ∈ (s.place h).stores ∧ ¬crosses h p)
      does (.clusterLinkFailed c a b) ∧ does (.clusterLinkFailed c b a)) ∧
    (∀ st : BitVec 4,
      let k := s.stack[st.toNat]'st.isLt
      let with_ := fun (k : Stack) => { s with stack := s.stack.set st.toNat k st.isLt }
      (k.linkFailed = true → exec (.crownToStackLinkFailed st) s = .next s) ∧
      (k.linkFailed = false → exec (.crownToStackLinkFailed st) s =
        .next { with_ { k with linkFailed := true } with plat := { s.plat with sent := event (st.setWidth 32) 3 } }) ∧
      (∃ n : BitVec 16, n.toNat = min (k.ratioChanges.toNat + 1) (2 ^ 16 - 1) ∧
        exec (.dramRatioChange st) s = .next (with_ { k with ratioChanges := n })) ∧
      (∃ n : BitVec 32, n.toNat = min (k.deferrals.toNat + 1) (2 ^ 32 - 1) ∧
        exec (.crownLatencyTarget st true) s = .next (with_ { k with deferrals := n })) ∧
      exec (.crownLatencyTarget st false) s = .next s)) ∧
  (
  ∀ (s : State), s.plat.boot = .ready → s.plat.portUp = true → Memory.wf s.mem = true →
    let sends := fun (t : State) (m : Message) => t.plat.sent = s.plat.sent ++ [m]
    let fails := fun (i : Instr) (m : Message) => ∃ t events, exec i s = .next t ∧ events ≠ [] ∧
      t.plat.sent = s.plat.sent ++ events ++ [m] ∧ s.sameMemory t
    let reads := fun (i : Instr) (reply : Bool → List Byte → Message) (pa n : Nat) =>
      (s.dramAt pa = none → ∃ t, exec i s = .next t ∧ sends t (reply true []) ∧ s.sameMemory t) ∧
      (∀ l, n ≠ 0 → pa / 256 = (pa + n - 1) / 256 → s.dramAt pa = some l →
        (s.readFails l n = false → ∃ t, exec i s = .next t ∧ sends t (reply false (s.readLoc l n)) ∧ s.sameMemory t) ∧
        (s.readFails l n = true → fails i (reply true [])))
    let writes := fun (i : Instr) (reply : Bool → List Byte → Message) (pa : Nat) (d : List Byte) (bad : Bool) =>
      (s.dramAt pa = none → ∃ t, exec i s = .next t ∧ sends t (reply true []) ∧ s.sameMemory t) ∧
      (∀ l, d ≠ [] → pa / 256 = (pa + d.length - 1) / 256 → s.dramAt pa = some l →
        ∃ t, exec i s = .next t ∧ sends t (reply false []) ∧ t.readLoc l d.length = d ∧ s.sameMemoryBut t l d.length ∧
          (bad = true → ∀ j < d.length, touchesPoison t (l + j) 1 = true))
    (∀ (tag pa n : Nat) (d : List Byte) (bad : Bool),
      (s.pkg.ualinkUp ≠ 0 → reads (.ualinkRequestIn (.read tag pa n)) (.uaResponse tag) pa n ∧
        writes (.ualinkRequestIn (.write tag pa d bad)) (.uaResponse tag) pa d bad) ∧
      (s.pkg.spinelUp ≠ 0 → reads (.spinelRequestIn (.read tag pa n)) (.spinelResponse tag) pa n ∧
        writes (.spinelRequestIn (.write tag pa d bad)) (.spinelResponse tag) pa d bad)) ∧
    (∀ r, s.pkg.ualinkUp = 0 → exec (.ualinkRequestIn r) s = .next s) ∧
    (∀ r, s.pkg.spinelUp = 0 → exec (.spinelRequestIn r) s = .next s) ∧
    (∀ (tag pa l : Nat) (wide : Bool) (b e : Word), s.pkg.ualinkUp ≠ 0 → s.dramAt pa = some l →
      let n := if wide then 8 else 4
      let atomic := fun (op : UaOp) (code : Nat) =>
        (pa % n ≠ 0 →
          ∃ t, exec (.ualinkRequestIn (.atomic tag op pa wide b e)) s = .next t ∧ sends t (.uaResponse tag true []) ∧ s.sameMemory t) ∧
        (pa % n = 0 → s.readFails l n = true →
          fails (.ualinkRequestIn (.atomic tag op pa wide b e)) (.uaResponse tag true [])) ∧
        (pa % n = 0 → s.readFails l n = false →
          let old := s.readLoc l n
          ∃ t, exec (.ualinkRequestIn (.atomic tag op pa wide b e)) s = .next t ∧ sends t (.uaResponse tag false old) ∧
            t.readLoc l n = ((amoResult code (8 * n) (valueOf old) b e).map fun w => lowBytes w n).getD old ∧
            s.sameMemoryBut t l n)
      atomic .add 0 ∧ atomic .swap 6 ∧ atomic .cas 7) ∧
    (∀ tag, s.pkg.ualinkUp ≠ 0 → exec (.ualinkRequestIn (.unsupported tag)) s =
      .next { s with plat := { s.plat with sent := s.plat.sent ++ [.uaResponse tag true []] } }) ∧
    (∀ (g : Byte) (name ordinal rank : Nat) (op : BitVec 2) (bytes : Nat) (fmt : BitVec 4) (seg : Nat) (buffer : List Byte),
      s.pkg.spinelUp ≠ 0 →
      ∃ t, exec (.spinelRequestIn (.collective g name ordinal rank op bytes fmt seg buffer)) s = .next t ∧
        (g, name, ordinal, ⟨rank, op, bytes, fmt, seg, buffer, none⟩) ∈ t.ranks ∧ t = { s with ranks := t.ranks }) ∧
    (∀ (g : Byte) (name ordinal : Nat) (cause : Byte), s.pkg.spinelUp ≠ 0 →
      ∃ t, exec (.spinelRequestIn (.collectiveAbort g name ordinal cause)) s = .next t ∧ t = { s with ranks := t.ranks } ∧
        ∃ d, (g, name, ordinal, d) ∈ t.ranks ∧ d.aborted = some cause) ∧
    (∀ (id : Nat) (r : RemoteRequest) (d : List Byte), s.remote.find? (fun q => decide (q.id = id ∧ q.status = .sent)) = some r →
      let event := Message.event 0x0023 r.subject [BitVec.ofNat 64 r.pa]
      let settles := fun (ok failed : Instr) =>
        (r.store = false → r.kind.answerOk d = true → exec ok s = .next { s with
          remote := s.remote.map fun q => if q.id = id then { q with status := .answered d } else q }) ∧
        (r.store = true → r.kind.answerOk d = true → exec ok s = .next { s with
          remote := s.remote.filter fun q => decide (q.id ≠ id) }) ∧
        (r.store = false → exec failed s = .next { s with
          plat := { s.plat with sent := s.plat.sent ++ [event] }
          remote := s.remote.map fun q => if q.id = id then { q with status := .failed } else q }) ∧
        (r.store = true → r.owner = .hart s.hart.id ∨ r.owner = .brim s.hart.id → exec failed s = .next { s with
          plat := { s.plat with sent := s.plat.sent ++ [event] }
          remote := s.remote.filter fun q => decide (q.id ≠ id)
          hart := { s.hart with failedStore := s.hart.failedStore.or (some r.va) } }) ∧
        (r.owner = .gone ∨ (r.store = true ∧ ∃ e, r.owner = .farm e) → exec failed s = .next { s with
          plat := { s.plat with sent := s.plat.sent ++ [event] }
          remote := s.remote.filter fun q => decide (q.id ≠ id) })
      ((∀ h, r.owner ≠ .brim h) → settles (.ualinkResponse id false d) (.ualinkResponse id true d) ∧
        settles (.ualinkResponse id false d) (.ualinkRequestTimeout id)) ∧
      (∀ h, r.owner = .brim h → s.pkg.spinelUp ≠ 0 → settles (.spinelRequestIn (.reply id (some d))) (.spinelRequestIn (.reply id none)))))
/-! ## The control node, boot and power (R2, R272, R280, R301, R379 to R388, R392 to R395) -/

/-- R272, R280, R388, R392 to R395: the messages of the control node to a ready device, their refusals, and what a
device that is not ready answers; the bytes of a message that comes in are read by its header, and an unknown type, a
false count of flits and an MGMT operation of 8 or above are turned away; a message waits behind one that a migration
holds; events are held while the port is down, and sent in order when it is back. That replies are held with them, that a
length out of range is refused, and that a LAUNCH of any other mode is refused, are the model's choices (assumption logs 63,
64 and 66), as are the second value of the EVENT for an operation of 8 or above (assumption log 68), that nothing happens
while the package is off, training or tripped (assumption log 4), and where a message waits (assumption log 114); the
signature is that of FIPS 205 (assumption log 102). -/
def Obligations.NodeMessages : Prop :=
  (
  ∀ (s : State) (tag : BitVec 32), s.plat.portUp = true → s.inbox = [] → Memory.wf s.mem = true →
    let sends := fun (t : State) (m : Message) => t = { s with plat := { s.plat with sent := s.plat.sent ++ [m] } }
    let refuses := fun (i : Instr) (a : Word) => ∃ t, exec i s = .next t ∧ sends t (.event 0x0003 0xFFFFFFFF [tag.setWidth 64, a])
    let malformed := fun (i : Instr) => ∃ t, exec i s = .next t ∧ sends t (.event 0x0002 0xFFFFFFFF [tag.setWidth 64])
    (s.plat.boot = .ready →
      (∀ (pa : Word) (len : BitVec 32) (d : List Byte),
        let outside := len = 0 ∨ 4096 < len.toNat ∨ ∃ j < len.toNat, s.dramAt (pa.toNat + j) = none
        (d.length ≠ len.toNat → malformed (.mwrite tag pa len d)) ∧
        (d.length = len.toNat → outside → refuses (.mwrite tag pa len d) pa) ∧
        (d.length = len.toNat → ¬outside → ∃ t, exec (.mwrite tag pa len d) s = .next t ∧
          (∀ j l, j < len.toNat → s.dramAt (pa.toNat + j) = some l → some (readCell t.mem l) = d[j]?) ∧
          (∀ k, (∀ j < len.toNat, s.dramAt (pa.toNat + j) ≠ some k) → readCell t.mem k = readCell s.mem k) ∧
          t.hart = s.hart ∧ t.parked = s.parked ∧ t.plat = s.plat) ∧
        (outside → ∃ t, exec (.mread tag pa len) s = .next t ∧ sends t (.mresp tag 1 [])) ∧
        (¬outside → (∀ j l, j < len.toNat → s.dramAt (pa.toNat + j) = some l → s.readFails l 1 = false) →
          ∃ (t : State) (r : List Byte), exec (.mread tag pa len) s = .next t ∧ t.plat.sent = s.plat.sent ++ [.mresp tag 0 r] ∧
            r.length = len.toNat ∧ s.sameMemory t ∧
            ∀ j l, j < len.toNat → s.dramAt (pa.toNat + j) = some l → r[j]? = some (readCell s.mem l))) ∧
      (∀ (pa : Word) (k : BitVec 32),
        (pa.toNat % 16 ≠ 0 ∨ s.dramAt pa.toNat = none → refuses (.signal tag pa k) pa) ∧
        (∀ l, pa.toNat % 16 = 0 → s.dramAt pa.toNat = some l → s.readFails l 16 = false →
          ∃ t, exec (.signal tag pa k) s = .next t ∧ t.arrival l = contributed (s.arrival l) k ∧ s.sameMemoryBut t l 16 ∧
            t.plat = s.plat)) ∧
      (∀ n, exec (.replay tag n) s = .next { s with stalls := s.stalls.filter fun t => decide (t.seq ≠ some n) }) ∧
      malformed (.malformedMessage tag) ∧
      (∀ (record ptbase tvec tdeleg : Word) (mode : Byte),
        (∀ u, mode.toNat ≤ 1 → s.rootRecord ptbase (if mode = 0 then .user else .supervisor) record = (.error .wait, u) →
          exec (.launchMessage tag record ptbase tvec tdeleg mode) s =
            .next { s with inbox := [.launch tag record ptbase tvec tdeleg mode] }) ∧
        (1 < mode.toNat → refuses (.launchMessage tag record ptbase tvec tdeleg mode) record) ∧
        (∀ (rb : Option (FarmRecord × List Byte)) (u : State), mode.toNat ≤ 1 →
          let m : Mode := if mode = 0 then .user else .supervisor
          let l : Launch := ⟨none, tag, rb, ptbase &&& 0xFFFFFFFFFFFFF000, tvec &&& ~~~1, tdeleg &&& 0xC60, m⟩
          s.rootRecord ptbase m record = (.ok rb, u) → u.lag = s.lag → u.plat = s.plat →
          (s.lag = true → exec (.launchMessage tag record ptbase tvec tdeleg mode) s =
            .next { u with ctl := { u.ctl with launches := u.ctl.launches ++ [l] } }) ∧
          (s.lag = false → u.ctl.launches = [] → ∃ t, exec (.launchMessage tag record ptbase tvec tdeleg mode) s = .next t ∧
            t.ctl.launches = [] ∧ t.ctl.farms = (u.ctl.judge l).2.farms ∧
            t.plat.sent = s.plat.sent ++ [.accept tag (u.ctl.judge l).1])))) ∧
    (s.plat.boot ≠ .off → s.plat.boot ≠ .training → s.plat.boot ≠ .tripped →
      (∀ nonce : List Byte,
        (nonce.length ≠ 32 → malformed (.attest tag nonce)) ∧
        (nonce.length = 32 → s.plat.attests.length < 5 → exec (.attest tag nonce) s =
          .next { s with plat := { s.plat with attests := s.plat.attests ++ [(tag, nonce)] } }) ∧
        (nonce.length = 32 → 5 ≤ s.plat.attests.length → ∃ t, exec (.attest tag nonce) s = .next t ∧
          sends t (.attestReply tag true []))) ∧
      (s.plat.boot ≠ .ready → ∀ (pa n a b c : Word) (len k : BitVec 32) (d : List Byte) (m : Byte),
        ∀ i ∈ [Instr.mwrite tag pa len d, .mread tag pa len, .signal tag pa k, .replay tag n, .launchMessage tag pa a b c m,
            .malformedMessage tag],
          ∃ t, exec i s = .next t ∧ sends t (.event 0x0004 0xFFFFFFFF [tag.setWidth 64]))) ∧
    (s.plat.boot = .off ∨ s.plat.boot = .training ∨ s.plat.boot = .tripped → ∀ (pa : Word) (len : BitVec 32) (d : List Byte),
      exec (.mwrite tag pa len d) s = .next s ∧ exec (.attest tag d) s = .next s ∧ exec (.malformedMessage tag) s = .next s) ∧
    (∀ (who : BitVec 32) (nonce : List Byte) (rest : List (BitVec 32 × List Byte)), s.plat.attests = (who, nonce) :: rest →
      let word := Config.identificationWord
      let signed_ := lowBytes (word.setWidth 64) 8 ++ nonce ++ List.replicate 24 0 ++
        (s.plat.measurements.toList.flatMap fun m => toBytes m.toNat 64) ++ identityKey
      let signature := identitySign s.draws signed_
      identityKey.length = 64 ∧ signature.length = 29792 ∧ ∃ t, exec .attestReply s = .next t ∧
        t.plat.sent = s.plat.sent ++ [.attestReply who false (signed_ ++ signature ++ List.replicate 32 0)] ∧
        t.plat.attests = rest ∧ t.plat.extends3 = [] ∧
        t.plat.measurements = s.plat.measurements.set 3 (s.plat.extends3.foldl extend s.plat.measurements[3])) ∧
    (∀ (bytes body : List Byte) (rest : List Move) (k : Byte) (flits : BitVec 16), s.agenda = .arrive bytes :: rest →
      bytes = [k, 0] ++ lowBytes (flits.setWidth 64) 2 ++ lowBytes (tag.setWidth 64) 4 ++ body →
      let u := { s with agenda := rest }
      let op := valueOf (body.take 2)
      let value := BitVec.ofNat 64 (valueOf ((body.drop 8).take 8))
      (∀ (pa : Word) (n : BitVec 32), k = 2 → flits = 1 →
        body = lowBytes pa 8 ++ lowBytes (n.setWidth 64) 4 ++ List.replicate 44 0 → step s = exec (.mread tag pa n) u) ∧
      (k = 2 → flits ≠ 1 → step s = exec (.malformedMessage tag) u) ∧
      (k ∉ [0x01, 0x02, 0x10, 0x12, 0x13, 0x30, 0x31] → step s = exec (.malformedMessage tag) u) ∧
      (k = 0x31 → 8 ≤ op → body.length = 56 → s.plat.boot ∉ [.off, .training, .tripped] → step s = .next { u with
        plat := { u.plat with sent := u.plat.sent ++ [if s.plat.boot = .ready
          then .event 0x0003 0xFFFFFFFF [tag.setWidth 64, value] else .event 0x0004 0xFFFFFFFF [tag.setWidth 64]] } })) ∧
    exec .berylPortDown s = .next { s with plat := { s.plat with portUp := false } } ∧
    (let down := { s with plat := { s.plat with portUp := false } }
     exec .berylPortUp down = .next { s with plat := { s.plat with
        portUp := true, held := [], lost := 0
        sent := s.plat.sent ++ (if s.plat.lost = 0 then [] else [Message.event 0x00FF 0xFFFFFFFF [BitVec.ofNat 64 s.plat.lost]]) ++
          s.plat.held } })) ∧
  (
  ∀ (s : State) (tag : BitVec 32) (a b c e : Word) (n k : BitVec 32) (d : List Byte) (m : Byte) (p : BitVec 16), s.plat.portUp = true →
    s.plat.boot ∉ [.off, .training, .tripped] → s.inbox ≠ [] →
    ∀ q ∈ ([(.mwrite tag a n d, .mwrite tag a n d), (.mread tag a n, .mread tag a n), (.signal tag a k, .signal tag a k),
        (.replay tag a, .replay tag a), (.launchMessage tag a b c e m, .launch tag a b c e m), (.attest tag d, .attest tag d),
        (.mgmtIdentify tag, .identify tag), (.mgmtReset tag, .reset tag), (.mgmtCsrWrite tag a b, .csrWrite tag a b),
        (.mgmtCsrRead tag a, .csrRead tag a), (.mgmtExtend tag d, .extend tag d),
        (.mgmtFirmwareWrite tag a b d, .firmwareWrite tag a b d), (.mgmtSetIdentity tag p a, .setIdentity tag p a),
        (.mgmtEndFarm tag a, .endFarm tag a), (.malformedMessage tag, .malformed tag)] : List (Instr × NodeMessage)),
      exec q.1 s = .next { s with inbox := s.inbox ++ [q.2] })
/-- R2, R301, R379, R381, R383 to R387, R393: the steps of the boot sequence, each at its own step only; the MGMT
operations, each where the boot sequence allows it; a failed verification; the thermal trip, the throttle, and the loss
of power. That a reset leaves all of local memory reading 0, and that memory which nothing has written reads 0, are the
model's choices (assumption logs 71 and 2), as are that an event out of its step changes nothing (assumption log 4), that
the x2 bits are only those of ports that are up (assumption log 69), the second value of the EVENT for a refused operation 6
(assumption log 68), and that a write of XINV waits as a message does (assumption log 114). -/
def Obligations.BootAndManagement : Prop :=
  ∀ (s : State) (tag : BitVec 32), s.plat.portUp = true → s.inbox = [] →
    let monitor := Config.rootMonitor.take 0x10000
    let notReady := fun (i : Instr) => ∃ t, exec i s = .next t ∧
      t = { s with plat := { s.plat with sent := s.plat.sent ++ [.event 0x0004 0xFFFFFFFF [tag.setWidth 64]] } }
    let measured := fun (i : Fin 4) (d : List Byte) => s.plat.measurements.set i (extend s.plat.measurements[i] d)
    let sends := fun (t : State) (m : Message) => t = { s with plat := { s.plat with sent := s.plat.sent ++ [m] } }
    let refuses := fun (i : Instr) (a : Word) => ∃ t, exec i s = .next t ∧ sends t (.event 0x0003 0xFFFFFFFF [tag.setWidth 64, a])
    let failsAt := fun (i : Instr) (step : Nat) => exec i s = .next { s with plat := { s.plat with
      boot := .failed step, sent := s.plat.sent ++ [.event 0x0031 0xFFFFFFFF [BitVec.ofNat 64 step]] } }
    let lost := fun (b : Boot) (sent : List Message) => { State.reset with
      plat := { Platform.reset with boot := b, portUp := s.plat.portUp, sent := sent }
      agenda := s.agenda, lag := s.lag, issueClock := s.issueClock, draws := s.draws }
    (s.plat.boot = .off →
      (imageOk monitor = true → exec .powerGood s = .next { s with plat := { s.plat with
        boot := .training, measurements := measured 0 (shake256 (Config.imageBody monitor)) } }) ∧
      (imageOk monitor = false → failsAt .powerGood 1)) ∧
    (s.plat.boot = .training → ∀ up, (up = false → s.plat.held = [] ∧ s.plat.lost = 0) →
      exec .berylTrained { s with plat := { s.plat with portUp := up } } =
        .next { s with plat := { s.plat with boot := .firmware } }) ∧
    (s.plat.boot = .firmware →
      (imageOk s.plat.image = true → exec .firmwareVerify s = .next { s with plat := { s.plat with
        boot := .links, measurements := measured 1 (shake256 (Config.imageBody s.plat.image)) } }) ∧
      (imageOk s.plat.image = false → failsAt .firmwareVerify 4)) ∧
    (s.plat.boot = .links → ∃ t, exec .trainingDone s = .next t ∧ t.plat = { s.plat with boot := .identity } ∧
      (∀ l, l < scalarBase 0 → readCell t.mem l = 0) ∧ t.poisoned = [] ∧ t.hart = s.hart ∧
      t.pkg = { s.pkg with ualinkUp := t.pkg.ualinkUp, ualinkX2 := t.pkg.ualinkX2, spinelUp := t.pkg.spinelUp } ∧
      t.pkg.ualinkX2 &&& ~~~t.pkg.ualinkUp = 0 ∧
      ∀ k : Fin 18, let out := (List.range 4).countP fun l => (s.plat.lanesLost[k]).getLsbD l
        (2 < out → t.pkg.ualinkUp.getLsbD k = false) ∧ (0 < out → t.pkg.ualinkX2.getLsbD k = t.pkg.ualinkUp.getLsbD k)) ∧
    (∀ (p : BitVec 16) (coord : Word),
      let c := coord &&& 0x1F1F1F1F1F1F
      (s.plat.boot = .identity → p.toNat ≤ 1023 → exec (.mgmtSetIdentity tag p coord) s = .next { s with
        pkg := { s.pkg with pkgid := p.setWidth 64, fabcoord := c }
        plat := { s.plat with
          boot := .ready
          measurements := measured 2 (lowBytes (p.setWidth 64) 8 ++ lowBytes c 8 ++ lowBytes (Config.fuseCounter.setWidth 64) 8)
          sent := s.plat.sent ++ [.event 0x0001 0xFFFFFFFF [Config.identificationWord.setWidth 64]] } }) ∧
      (s.plat.boot = .ready ∨ s.plat.boot = .identity ∧ 1023 < p.toNat → refuses (.mgmtSetIdentity tag p coord) coord)) ∧
    (s.plat.boot ∉ [.off, .training, .tripped, .ready] → ∀ (a b : Word) (d : List Byte) (p : BitVec 16),
      notReady (.mgmtExtend tag d) ∧ notReady (.mgmtEndFarm tag a) ∧
      (s.plat.boot ≠ .firmware → notReady (.mgmtFirmwareWrite tag a b d)) ∧
      (s.plat.boot ≠ .identity →
        notReady (.mgmtCsrWrite tag a b) ∧ notReady (.mgmtCsrRead tag a) ∧ notReady (.mgmtSetIdentity tag p a))) ∧
    (s.plat.boot = .identity ∨ s.plat.boot = .ready → ∀ num v : Word,
      (num = 0x306 → s.xinvBusy v = true →
        exec (.mgmtCsrWrite tag num v) s = .next { s with inbox := [.csrWrite tag num v] }) ∧
      (packageNumber num = true →
        (num = 0x306 → s.xinvBusy v = false) → exec (.mgmtCsrWrite tag num v) s = .next (s.writePkg num.toNat v)) ∧
      (packageNumber num = true → ∃ t, exec (.mgmtCsrRead tag num) s = .next t ∧ t.plat.sent = s.plat.sent ++ [.csrValue tag (s.readPkg num.toNat)]) ∧
      (packageNumber num = false → refuses (.mgmtCsrWrite tag num v) num ∧ refuses (.mgmtCsrRead tag num) num)) ∧
    (∀ (off len : Word) (d : List Byte), d.length = len.toNat →
      let ok := 1 ≤ len.toNat ∧ len.toNat ≤ 4096 ∧ off.toNat + len.toNat ≤ 0x4000000
      (s.plat.boot = .firmware → ok → Memory.wf s.plat.firmware = true → ∃ t, exec (.mgmtFirmwareWrite tag off len d) s = .next t ∧
        t = { s with plat := { s.plat with firmware := t.plat.firmware } } ∧
        readCells t.plat.firmware off.toNat d.length = d ∧
        ∀ k, ¬(off.toNat ≤ k ∧ k < off.toNat + d.length) → readCell t.plat.firmware k = readCell s.plat.firmware k) ∧
      (s.plat.boot = .firmware ∧ ¬ok ∨ s.plat.boot = .ready → refuses (.mgmtFirmwareWrite tag off len d) off)) ∧
    (∀ d : List Byte, s.plat.boot = .ready → d.length = 64 →
      (s.plat.attests = [] → exec (.mgmtExtend tag d) s = .next { s with plat := { s.plat with measurements := measured 3 d } }) ∧
      (s.plat.attests ≠ [] → exec (.mgmtExtend tag d) s =
        .next { s with plat := { s.plat with extends3 := s.plat.extends3 ++ [d] } })) ∧
    (∀ id : Word, s.plat.boot = .ready →
      (s.farmNamed id = none → refuses (.mgmtEndFarm tag id) id) ∧
      (∀ f, s.farmNamed id = some f → s.works = [] → s.migrations = [] → ∃ t, exec (.mgmtEndFarm tag id) s = .next t ∧
        t.farmAt f.entry = none ∧ t.plat.sent = s.plat.sent ++ [.event 0x0011 0xFFFFFFFF [f.farmid, 0x100]])) ∧
    (s.plat.boot ≠ .off → s.plat.boot ≠ .training →
      (s.plat.boot ≠ .tripped → ∃ t, exec (.mgmtIdentify tag) s = .next t ∧ sends t (.identify tag Config.identificationWord)) ∧
      ∃ t, exec .powerGood (lost .off s.plat.sent) = .next t ∧ exec (.mgmtReset tag) s = .next t) ∧
    (∀ temp : Byte,
      (115 ≤ temp.toNat → s.plat.boot ≠ .off → s.plat.boot ≠ .tripped → exec (.thermalTrip temp) s =
        .next (lost .tripped (s.plat.sent ++ [.event 0x0030 0xFFFFFFFF [temp.setWidth 64]]))) ∧
      (temp.toNat < 115 → exec (.thermalTrip temp) s = .next s)) ∧
    (∀ crown brim : Byte, ∃ n : BitVec 12, exec (.throttle crown brim) s = .next { s with
        pkg := { s.pkg with withheldCrown := crown, withheldBrim := brim, throttles := n } } ∧
      n.toNat = if s.pkg.withheldCrown = 0 ∧ s.pkg.withheldBrim = 0 ∧ (crown ≠ 0 ∨ brim ≠ 0) then
        min (s.pkg.throttles.toNat + 1) (2 ^ 12 - 1) else s.pkg.throttles.toNat) ∧
    exec .powerRemoved s = .next (lost .off s.plat.sent)
/-! ## Reset, the step, and the encoding (R41, R45, R68, R185) -/

/-- R68, R244 and the reset columns of the CSR maps: what package reset leaves: no hart runs and nothing is in flight,
registers, masks and tiles read zero, VCFG is 32 registers of FP32, memory holds nothing, and each CSR has the value of
its map. That the barrier slots read zero is the model's choice, as is the pc, which is not stated (assumption log 1), and as is
that unlisted memory reads 0 (assumption log 2). -/
def Obligations.ResetLeaves : Prop :=
  let s := State.reset
  (∀ h : HartId,
    let k := s.place h
    k.live = false ∧ k.mode = .supervisor ∧ (∀ r, k.get r = 0) ∧ (∀ g : Fin 256, k.v[g] = 0 ∧ k.brim[g] = 0 ∧ k.brimPoison[g] = 0) ∧
      (∀ m : BitVec 5, m ≠ 0 → k.mask m = 0) ∧ k.mask 0 = BitVec.allOnes 8192 ∧ k.count = .c32 ∧ k.elem = .fp32 ∧
      (∀ r : Fin 64, k.progress[r] = 8) ∧ (∀ n : Fin 128, k.tile[n] = 0) ∧ k.queue = [] ∧ k.convoys = [] ∧ k.brimConvoys = []) ∧
    (∀ n, n < 0x180 → n ≠ 0x001 → n ≠ 0x002 → n ≠ 0x003 → n ≠ 0x008 → n ≠ 0x01C → n ≠ 0x022 → n ≠ 0x023 → n ≠ 0x044 →
      n ≠ 0x100 → n ≠ 0x106 → s.readCsr n = 0) ∧
    s.readCsr 0x001 = 14 ∧ s.readCsr 0x002 = 512 ∧ s.readCsr 0x003 = 512 ∧ s.readCsr 0x01C = 1 ∧ s.readCsr 0x022 = 0x00100100 ∧
    s.readCsr 0x023 = 1 ∧ s.readCsr 0x044 = 0xFFFFFFFF ∧ s.readCsr 0x100 = 1 ∧ s.readCsr 0x106 = 0xFFFFFFFF ∧
    (∀ c : Fin 128, s.cores[c].wgate = 256 ∧ s.cores[c].wpower = 250000 ∧ s.cores[c].wreport = 2500000000 ∧
      s.cores[c].cerr = 0 ∧ s.cores[c].tlb = [] ∧ s.cores[c].icache = []) ∧
    (∀ c : Fin 32, ∀ k : Fin 8, s.clusters[c].slots[k].generation = 0 ∧ s.clusters[c].slots[k].arrived = 0) ∧
    s.pkg.fstarve = 1250000 ∧ s.pkg.pwrcap = 3200 ∧ s.pkg.ctimeout = 100000 ∧ s.pkg.fbbase = 0 ∧ s.pkg.spbase = 0 ∧
    s.pkg.refusals = 0 ∧ s.pkg.preemptions = 0 ∧ s.plat.boot = .off ∧ (∀ k : Fin 4, s.plat.measurements[k] = 0) ∧
    s.ctl.farms = [] ∧ s.works = [] ∧ s.mem = [] ∧ Memory.wf s.mem = true ∧ s.sound
/-- R24, R68, R103 to R105, R170: the scalar stream keeps the soundness of the state: memory stays in its canonical
form, the pc and every address that a trap, a return or a loop goes to stay even, and FPCTL keeps a rounding mode; in
every state, for an execution and for the step of a hart's turn. -/
def Obligations.ScalarStreamKeepsSoundness : Prop :=
  (∀ (s t : State) (i : Instr), s.sound → s.hart.still = true → s.hart.queue = [] → isScalar i = true → exec i s = .next t →
    t.sound) ∧
  ∀ (s u t : State) (h : HartId) (rest : List Move) (d l : List Byte) (i : Instr), s.sound → s.agenda = .turn h :: rest →
    let z := { s with agenda := rest }
    (z.focus h).mayIssue = true → (z.chosen h).fetchInstr (z.chosen h).hart.pc = (.ok d, u) → decode d = .ok (i, l) →
    u.hart.still = true → u.hart.queue = [] → isScalar i = true → step s = .next t → t.sound

/-- R41, R45 to R60: the bytes that the encoder gives any well-formed instruction, whatever follows them, are read back
as that instruction and nothing more, with every operand at every value that its encoding admits; every well-formed
instruction that is no event has such bytes, and the rows that share another row's word have that row's, so that they are
read as it (assumption log 9). Bytes that are read as an instruction are those that the encoder gives it, so no bit of a
word is ignored. -/
def Obligations.EncodingRoundTrip : Prop :=
  (∀ (i : Instr) (e : Encoding) (rest : List Byte), i.wf = true → encode i = some e → sharesItsWord i = false →
    (e.bits = 16 ∨ e.bits = 32 ∨ e.bits = 64) ∧ e.word < 2 ^ e.bits ∧
    decode (toBytes e.word (e.bits / 8) ++ rest) = .ok (i, rest)) ∧
  (∀ i : Instr, i.wf = true → isNoWord i = false → ∃ e, encode i = some e) ∧
  (∀ a b n : BitVec 5, encode (.stctlAsid a b) = encode (.stctlStream a b) ∧ encode (.stctlAll a b) = encode (.stctlStream a b) ∧
    encode (.collAllGather n a b) = encode (.collAllReduce n a b) ∧
    encode (.collReduceScatter n a b) = encode (.collAllReduce n a b)) ∧
  ∀ (bytes rest : List Byte) (i : Instr), decode bytes = .ok (i, rest) →
    i.wf = true ∧ sharesItsWord i = false ∧ ∃ e, encode i = some e ∧ bytes = toBytes e.word (e.bits / 8) ++ rest
/-- R41, R185, R186: in a hart's turn, and where nothing but a hart's issue is left to do, the step fetches at that
hart's pc and executes the instruction that the bytes begin with, in the state that the fetch leaves; bytes that are
none, and a fetch that stops, are the two items that R42 and R274 describe. -/
def Obligations.StepRunsDecodedInstruction : Prop :=
  ∀ (s z : State),
    ((∃ h rest, s.agenda = .turn h :: rest ∧ (({ s with agenda := rest }).focus h).mayIssue = true ∧
        z = ({ s with agenda := rest }).chosen h) ∨
      (∃ h : Hart, s.agenda = [] ∧ (s.hartsFirst = true ∨ s.deviceStep = none) ∧
        let ready := s.harts.filter fun k => s.ready k.id
        s.choice ready = some h ∧ z = (s.passOver h.id ready).chosen h.id)) →
    (∀ d t i l, z.fetchInstr z.hart.pc = (.ok d, t) → decode d = .ok (i, l) → step s = exec i t) ∧
    (∀ d t e, z.fetchInstr z.hart.pc = (.ok d, t) → decode d = .error e → step s = exec .notAnInstruction z) ∧
    (∀ e t, z.fetchInstr z.hart.pc = (.error e, t) → step s = exec .instructionFetchFault z)
/-- R45 to R60: words written out from the encodings of the spec, one or two to a family, decode to their instructions; R254:
the four words of the cluster sum. -/
def Obligations.WordsDecode : Prop :=
  ∀ p ∈ ([(32, 0x2929C000, .add 9 9 10), (32, 0x0009C080, .addi 9 0 0), (32, 0x0021C084, .addi 1 1 4),
      (32, 0xFC63C0FB, .addi 3 3 0x1FFB), (16, 0x017B, .cAddi 2 0x7B), (16, 0xAC00, .cNop), (32, 0x002AC2D0, .ldWn 10 1 0),
      (32, 0x0040C608, .loop 0 2 8), (32, 0x0069C38F, .ldAcqD 9 3 7), (32, 0x0069C39F, .stRelD 9 3 7),
      (32, 0xA46BC687, .amoadd 1 11 9 3 7), (32, 0xA46BC707, .amoaddAcqrel 1 11 9 3 7), (32, 0x7000C790, .fenceVs 7),
      (32, 0x0000C7CF, .fenceStk 15), (32, 0x080DC884, .csrr 13 0x044), (32, 0x0000C830, .uret),
      (32, 0x0009D00E, .vcfg 9 2 3 0), (32, 0x2141D500, .whileLt 1 10 8), (32, 0x3401D5D0, .mbclr 1 13),
      (32, 0x1422D223, .vfmul 0 2 1 5 1 1), (32, 0x0025D6D0, .vfredsum 0 5 1 0 0), (32, 0x004AD660, .vsprs 0 10 2 0 0),
      (32, 0x0161D803, .vld 0 1 11 1 1), (32, 0x0182D982, .vst 0 2 12 1 0), (32, 0x18A4D922, .vldxBd 4 5 6 1 0),
      (32, 0x0828DB00, .vwin 8 1 2), (32, 0x0820DB12, .vwred 1 2 1 0), (32, 0x0C41DB80, .copyL 1 2 3),
      (32, 0x0C41DBA0, .embw 1 2 3), (32, 0x0824DBA9, .stprobe 1 4 1 2), (32, 0x0041DBD0, .pmig 1 2),
      (32, 0x0161DC00, .awarm 1 11), (32, 0x0141DC17, .waitGen 1 10 7), (32, 0x0180DC20, .carrive 0 12), (32, 0x0000DC28, .cwait 0 0),
      (32, 0x0241D801, .vld 0 1 18 0 1), (32, 0x0161D980, .vst 0 1 11 0 0),
      (32, 0x0029DC38, .launch 9 1), (32, 0x000EDC40, .farmnext 14), (64, 0x000000010000E000, .mshape 1),
      (64, 0x000088800104E140, .mma 1 4 8 4 4 0 0 1),
      (64, 0x000008800E02E1C0, .mmas 1 2 16 3 4 4 0 0 0)] : List (Nat × Nat × Instr)),
    decodeTableWord p.1 p.2.1 = some p.2.2

/-! ## The core and package CSRs that software writes (R202, R267, R271) -/

/-- R267, R268, R271, R298, R337, R364, R382, R401, R202: what a `csrw` of each core and package CSR that software may write
leaves, by a supervisor hart with no convoy in flight, when it is executed or in the event that ends its wait. A write of
XINV drops the leaves that it names everywhere, and every walk-cache entry, with every posted store performed: that it
performs those of every hart, where no load holds one back, is the model's reading (assumption log 37), as is that PWRCAP
is cut to its field before it is clamped (assumption log 81). -/
def Obligations.SystemCsrWrites : Prop :=
  ∀ (s : State) (a : BitVec 5), s.hart.mode = .supervisor → s.unhindered 4 [0, a] → s.hart.still = true →
    let v := s.x a
    let p := s.pkg
    let completes := fun (csr : BitVec 11) (e : HartId → Instr) (holds : State → Prop) =>
      ∀ i ∈ [Instr.csrWriteApply, e], ∀ ends, s.performs (.csrw 0 csr a) i ends →
        ∃ t, ends t ∧ s.fellThrough t 4 ∧ (∀ r, t.x r = s.x r) ∧ holds t
    let does := fun (csr : BitVec 11) (e : HartId → Instr) (new : State) => completes csr e new.onlyXs
    let pkg := fun (q : PackageCsrs) => { s with pkg := q }
    let idle := p.fbhead = p.fbtail ∧ s.heldRecords = 0
    let saved := s.noSlices = true
    let core := fun (k : Core) => { s with cores := s.cores.set (s.hart.id.toNat / 4) k (by have := s.hart.id.isLt; omega) }
    let own := s.cores[s.hart.id.toNat / 4]'(by have := s.hart.id.isLt; omega)
    let noDirs := s.stack.map fun k => { k with dir := [] }
    let ring := v &&& 0xFFFFFFFFFF000
    let n := v.toNat % 2 ^ 17
    (does 0x300 .fbbaseWrite
        (if idle ∧ (s.dramAt ring.toNat).isSome = true then pkg { p with fbbase := ring } else s) ∧
      does 0x301 .fbsizeWrite
        (if idle ∧ n ∈ 0 :: (List.range 11).map (fun k => 2 ^ (6 + k)) then pkg { p with fbsize := BitVec.ofNat 64 n } else s) ∧
      (s.heldRecords = 0 → does 0x303 .fbtailWrite
        (if p.fbtail.toNat ≤ v.toNat ∧ v.toNat ≤ p.fbhead.toNat then pkg { p with fbtail := v } else s)) ∧
      does 0x304 .registerWrite (if v.getLsbD 63 then pkg { p with fbovf := false } else s)) ∧
    (does 0x310 .registerWrite (pkg { p with fstarve := v &&& 0xFFFFFFFF }) ∧
      does 0x311 .spbaseWrite (if saved then pkg { p with spbase := ring } else s) ∧
      does 0x312 .spsizeWrite (if saved then pkg { p with spsize := v &&& 0xFFFFFF } else s) ∧
      does 0x320 .registerWrite (pkg { p with acsel := v &&& 0x8000000F000FFFFF }) ∧
      does 0x323 .bsaveWrite (if saved then pkg { p with bsave := v &&& 0x00FFFFFF000FFFFF } else s) ∧
      does 0x330 .stabaseWrite { s with stack := noDirs, pkg := { p with stabase := v &&& 0xFFFFF0000 } } ∧
      does 0x331 .stalimitWrite { s with stack := noDirs, pkg := { p with stalimit := v &&& 0xFFFFF } } ∧
      does 0x332 .registerWrite (pkg { p with stcsel := v &&& 0x800000000000007F }) ∧
      does 0x340 .pwrcapWrite (pkg { p with pwrcap := BitVec.ofNat 64 (max 1200 (min 3200 (v.toNat % 2 ^ 12))) }) ∧
      does 0x351 .registerWrite (pkg { p with podmap := ring }) ∧
      does 0x352 .registerWrite (pkg { p with cgbase := v &&& 0xFFFFFFFFFC000 }) ∧
      does 0x353 .registerWrite (pkg { p with ctimeout := v &&& 0xFFFFFFFF })) ∧
    (does 0x200 .registerWrite (core { own with wgate := v &&& 0xFFFFFFFF }) ∧
      does 0x201 .registerWrite (core { own with wpower := v &&& 0xFFFFFFFF }) ∧
      does 0x202 .registerWrite (core { own with wreport := v &&& 0xFFFFFFFFFFFF }) ∧
      does 0x204 .registerWrite (core { own with cerr := own.cerr &&& ~~~(v &&& 0xC000000000000000) })) ∧
    (let page := v.toNat % 2 ^ 45 * 4096
     let drops := fun (e : TlbEntry) =>
       let base := e.base.toNat % 2 ^ 57
       v.getLsbD 63 = true ∨ (base ≤ page ∧ page < base + e.size ∧
         (v.getLsbD 62 = true ∨ v.extractLsb' 50 12 = e.asid ∨ e.leaf.getLsbD 5 = true))
     let left := fun (old new : List TlbEntry) => ∃ q : TlbEntry → Bool, (∀ e, q e = true ↔ drops e) ∧
       new = old.filter fun e => !q e
     let gone := fun (t : State) => (∀ c : Fin 128, left (s.cores[c]).tlb (t.cores[c]).tlb) ∧
       (∀ c : Fin 16, left (s.stack[c]).tlb (t.stack[c]).tlb) ∧ (∀ k : Fin 32, (t.walkers[k]).cache = []) ∧
       (∀ k ∈ t.harts, k.stores = []) ∧ s.performAll.sameMemory t
     (∀ r ∈ s.remote, r.status ≠ .sent) → (∀ k ∈ s.harts, k.loading = false) →
      completes 0x306 .xinvComplete gone ∧ completes 0x306 (if v.getLsbD 63 then .xinvAll else .xinvPage) gone)
end

