-- ==== Sys2Proof/Laws/State.lean ====
section
/-! SUPPORT. State.lean: what each named update leaves in each field, by `rfl`, and how registers read after a write. -/

namespace Sys2Proof.Machine

/-! ## x registers (R68, R92) -/

@[simp] theorem Hart.get_zero (h : Hart) : h.get 0 = 0 := rfl

theorem Hart.get_set_self (h : Hart) (d : BitVec 5) (v : Word) : (h.set d v).get d = if d = 0 then 0 else v := by
  by_cases e : d = 0
  · rw [if_pos e, e]; rfl
  · unfold Hart.get Hart.set
    rw [if_neg e, if_neg e, if_neg e]
    exact Vector.getElem_set_self _

theorem Hart.get_set_other (h : Hart) {d r : BitVec 5} (v : Word) (ne : r ≠ d) : (h.set d v).get r = h.get r := by
  unfold Hart.get Hart.set
  by_cases e : d = 0
  · rw [if_pos e]
  · rw [if_neg e]
    have g : d.toNat ≠ r.toNat := fun h' => ne (BitVec.eq_of_toNat_eq h'.symm)
    simp only [Vector.getElem_set_ne _ _ g]

/-- A register write changes the x registers alone. -/
theorem Hart.set_eq (h : Hart) (d : BitVec 5) (v : Word) : h.set d v = { h with x := (h.set d v).x } := by
  unfold Hart.set; split <;> rfl

@[simp] theorem Hart.set_pc (h : Hart) (d : BitVec 5) (v : Word) : (h.set d v).pc = h.pc := by rw [Hart.set_eq]
@[simp] theorem Hart.set_csr (h : Hart) (d : BitVec 5) (v : Word) : (h.set d v).csr = h.csr := by rw [Hart.set_eq]
@[simp] theorem Hart.set_id (h : Hart) (d : BitVec 5) (v : Word) : (h.set d v).id = h.id := by rw [Hart.set_eq]
@[simp] theorem Hart.set_mode (h : Hart) (d : BitVec 5) (v : Word) : (h.set d v).mode = h.mode := by rw [Hart.set_eq]
@[simp] theorem Hart.set_reissue (h : Hart) (d : BitVec 5) (v : Word) : (h.set d v).reissue = h.reissue := by
  rw [Hart.set_eq]

@[simp] theorem State.setX_mem (s : State) (d : BitVec 5) (v : Word) : (s.setX d v).mem = s.mem := rfl
@[simp] theorem State.setX_hart (s : State) (d : BitVec 5) (v : Word) : (s.setX d v).hart = s.hart.set d v := rfl
@[simp] theorem State.setX_lag (s : State) (d : BitVec 5) (v : Word) : (s.setX d v).lag = s.lag := rfl
@[simp] theorem State.setPc_mem (s : State) (w : Word) : (s.setPc w).mem = s.mem := rfl
@[simp] theorem State.setPc_pc (s : State) (w : Word) : (s.setPc w).hart.pc = w := rfl
@[simp] theorem State.setPc_csr (s : State) (w : Word) : (s.setPc w).hart.csr = s.hart.csr := rfl
@[simp] theorem State.setPc_x (s : State) (w : Word) (r : BitVec 5) : (s.setPc w).x r = s.x r := rfl
@[simp] theorem State.onHart_hart (s : State) (f : Hart → Hart) : (s.onHart f).hart = f s.hart := rfl
@[simp] theorem State.onHart_mem (s : State) (f : Hart → Hart) : (s.onHart f).mem = s.mem := rfl
@[simp] theorem State.onCsr_csr (s : State) (f : Csrs → Csrs) : (s.onCsr f).hart.csr = f s.hart.csr := rfl
@[simp] theorem State.onCsr_mem (s : State) (f : Csrs → Csrs) : (s.onCsr f).mem = s.mem := rfl
@[simp] theorem State.onHart_lag (s : State) (f : Hart → Hart) : (s.onHart f).lag = s.lag := rfl
@[simp] theorem State.onHart_watched (s : State) (f : Hart → Hart) : (s.onHart f).watched = s.watched := rfl
@[simp] theorem State.onHart_remote (s : State) (f : Hart → Hart) : (s.onHart f).remote = s.remote := rfl
@[simp] theorem State.onHart_works (s : State) (f : Hart → Hart) : (s.onHart f).works = s.works := rfl
@[simp] theorem State.onHart_inbox (s : State) (f : Hart → Hart) : (s.onHart f).inbox = s.inbox := rfl
@[simp] theorem State.onHart_ctl (s : State) (f : Hart → Hart) : (s.onHart f).ctl = s.ctl := rfl

theorem State.x_setX_self (s : State) (d : BitVec 5) (v : Word) : (s.setX d v).x d = if d = 0 then 0 else v :=
  Hart.get_set_self _ _ _

theorem State.x_setX_other (s : State) {d r : BitVec 5} (v : Word) (ne : r ≠ d) : (s.setX d v).x r = s.x r :=
  Hart.get_set_other _ _ ne

/-! ## Masks (R73) -/

@[simp] theorem Hart.mask_zero (h : Hart) : h.mask 0 = BitVec.allOnes 8192 := rfl

/-- A write of a mask changes the masks alone. -/
theorem Hart.setMask_eq (h : Hart) (r : BitVec 5) (v : Mask) : h.setMask r v = { h with m := (h.setMask r v).m } := by
  unfold Hart.setMask; split <;> rfl

/-- A mask reads what was written, m0 all ones; the field holds m0 to m23. -/
theorem Hart.mask_setMask_self (h : Hart) {r : BitVec 5} (v : Mask) (lt : r.toNat < 24) :
    (h.setMask r v).mask r = if r = 0 then BitVec.allOnes 8192 else v := by
  by_cases e : r = 0
  · rw [if_pos e, e]; rfl
  · unfold Hart.mask Hart.setMask
    rw [if_neg e, if_neg e, if_neg e]
    simp [Vector.getD, lt]

theorem Hart.mask_setMask_other (h : Hart) {d r : BitVec 5} (v : Mask) (ne : r ≠ d) :
    (h.setMask d v).mask r = h.mask r := by
  unfold Hart.mask Hart.setMask
  by_cases e : d = 0
  · rw [if_pos e]
  · rw [if_neg e]
    have g : d.toNat ≠ r.toNat := fun h' => ne (BitVec.eq_of_toNat_eq h'.symm)
    simp [Vector.getD, g]

end Sys2Proof.Machine
end

