-- ==== Sys2Proof/Laws/Complete.lean ====
section
/-! SUPPORT. Complete.lean: what each way of ending an instruction of the scalar stream leaves, said once. -/

namespace Sys2Proof.Machine

/-- Falling through touches the loop counts alone among the CSRs. -/
theorem countDown_csr (a next : Word) (ks : List (Fin 2)) (c : Csrs) :
    (countDown a next ks c).2 = { c with lcnt := (countDown a next ks c).2.lcnt } := by
  induction ks generalizing c with
  | nil => rfl
  | cons k ks ih =>
    unfold countDown
    split
    · dsimp only
      split
      · rfl
      · rw [ih]
    · exact ih c

theorem Csrs.fallThrough_csr (c : Csrs) (a next : Word) :
    (c.fallThrough a next).2 = { c with lcnt := (c.fallThrough a next).2.lcnt } := countDown_csr _ _ _ _

/-- With both loop counts 0, falling through goes to the next address and counts nothing (R104). -/
theorem Csrs.fallThrough_idle (c : Csrs) (a next : Word) (h : ∀ k : Fin 2, c.lcnt[k] = 0) :
    c.fallThrough a next = (next, c) := by
  unfold Csrs.fallThrough innerFirst
  split <;> simp [countDown, h]

/-- An instruction that nothing hinders falls through with its effect. -/
theorem State.complete_eq (s : State) (len : Nat) (eff : State → State)
    (h : s.edge s.hart.pc (s.nextPc len) = .start) : s.complete len eff = s.fallTo (s.nextPc len) eff := by
  unfold State.complete State.goingOn; rw [h]; rfl

/-- The state in which the effect of an instruction that falls through runs. -/
theorem State.fallTo_eq (s : State) (next : Word) (eff : State → State) :
    s.fallTo next eff = (eff { s with hart := { s.hart with
      csr := { s.hart.csr with lcnt := (s.hart.csr.fallThrough s.hart.pc next).2.lcnt }, reissue := 0 } }).setPc
      (s.hart.csr.fallThrough s.hart.pc next).1 := by
  rw [← Csrs.fallThrough_csr]; rfl

/-- What an instruction that computes a value for an x register leaves, once nothing hinders it. -/
theorem State.compute_eq (s : State) (len : Nat) (d : BitVec 5) (srcs : List (BitVec 5)) (v : Word)
    (busy : s.hart.busyX (d :: srcs) = false) (edge : s.edge s.hart.pc (s.nextPc len) = .start) :
    s.compute len d srcs v = s.fallTo (s.nextPc len) fun t => t.setX d v := by
  unfold State.compute
  rw [busy, State.complete_eq _ _ _ edge]
  rfl

/-- A convoy in flight holds the instruction back: it is executed again (R81). -/
theorem State.compute_busy (s : State) (len : Nat) (d : BitVec 5) (srcs : List (BitVec 5)) (v : Word)
    (busy : s.hart.busyX (d :: srcs) = true) : s.compute len d srcs v = s := by
  unfold State.compute; rw [busy]; rfl

/-- The x registers after falling through with a register write. -/
theorem State.fallTo_x (s : State) (next : Word) (d r : BitVec 5) (v : Word) :
    (s.fallTo next fun t => t.setX d v).x r = if r = d then (if d = 0 then 0 else v) else s.x r := by
  rw [State.fallTo_eq, State.setPc_x]
  by_cases e : r = d
  · subst e; rw [if_pos rfl, State.x_setX_self]
  · rw [if_neg e, State.x_setX_other _ _ e]; rfl

/-- A register write among more or fewer registers that no convoy in flight writes. -/
theorem Hart.busyX_mono (h : Hart) {rs qs : List (BitVec 5)} (sub : ∀ r ∈ qs, r ∈ rs) (b : h.busyX rs = false) :
    h.busyX qs = false := by
  unfold Hart.busyX at *
  simp only [List.any_eq_false, List.any_eq_true, not_exists, not_and, List.contains_eq_mem, decide_eq_true_eq] at *
  exact fun c hc r hr hq => b c hc r hr (sub r hq)

end Sys2Proof.Machine
end

