-- ==== Sys2Proof/Laws/Memory.lean ====
section
/-! SUPPORT. Memory.lean: reading after writing, and that every operation on memory keeps the canonical form. -/

namespace Sys2Proof.Machine

/-! ## Reading after writing -/

theorem cellsFrom_mono {lo lo' : Nat} (h : lo' ≤ lo) {m : List Host.Cell} (w : cellsFrom lo m = true) :
    cellsFrom lo' m = true := by
  cases m with
  | nil => rfl
  | cons c rest =>
    simp only [cellsFrom, Bool.and_eq_true, decide_eq_true_eq] at w ⊢
    exact ⟨⟨Nat.le_trans h w.1.1, w.1.2⟩, w.2⟩

/-- Below its first cell a canonical list reads blank. -/
theorem readCell_below {lo a : Nat} (h : a < lo) {m : List Host.Cell} (w : cellsFrom lo m = true) :
    readCell m a = blankByte := by
  cases m with
  | nil => rfl
  | cons c rest =>
    simp only [cellsFrom, Bool.and_eq_true, decide_eq_true_eq] at w
    have : a < c.1 := Nat.lt_of_lt_of_le h w.1.1
    unfold readCell
    rw [if_neg (Nat.ne_of_lt this), if_pos this]

theorem readCell_writeCell_from {m : List Host.Cell} {lo : Nat} (w : cellsFrom lo m = true) (a k : Nat) (b : Byte) :
    readCell (writeCell m a b) k = if k = a then b else readCell m k := by
  induction m generalizing lo with
  | nil =>
    unfold writeCell
    split
    · next e => subst e; split <;> rfl
    · unfold readCell readCell
      split
      · rfl
      · split <;> rfl
  | cons c rest ih =>
    obtain ⟨q, v⟩ := c
    simp only [cellsFrom, Bool.and_eq_true, decide_eq_true_eq] at w
    unfold writeCell
    split
    · next lt =>
      split
      · next e =>
        subst e
        split
        · next ka =>
          subst ka; unfold readCell; rw [if_neg (Nat.ne_of_lt lt), if_pos lt]
        · rfl
      · unfold readCell
        split
        · rfl
        · next ne =>
          split
          · next ka =>
            have h1 : k < q := Nat.lt_trans ka lt
            rw [if_neg (Nat.ne_of_lt h1), if_pos h1]
          · rfl
    · next nlt =>
      split
      · next e =>
        subst e
        split
        · next e2 =>
          subst e2
          split
          · next ka => subst ka; exact readCell_below (Nat.lt_succ_self _) w.2
          · next ka =>
            conv => rhs; unfold readCell
            rw [if_neg ka]
            split
            · next lt => exact readCell_below (Nat.lt_succ_of_lt lt) w.2
            · rfl
        · conv => lhs; unfold readCell
          conv => rhs; unfold readCell
          split
          · rfl
          · rfl
      · next ne =>
        conv => lhs; unfold readCell
        conv => rhs; unfold readCell
        rw [ih w.2]
        by_cases ka : k = a
        · subst ka
          rw [if_neg ne, if_neg nlt, if_pos rfl, if_pos rfl]
        · rw [if_neg ka, if_neg ka]

/-- A byte reads back as written, and every other byte as before. -/
theorem readCell_writeCell {m : List Host.Cell} (w : Memory.wf m = true) (a k : Nat) (b : Byte) :
    readCell (writeCell m a b) k = if k = a then b else readCell m k := readCell_writeCell_from w a k b

/-! ## The canonical form is kept -/

theorem cellsFrom_writeCell {m : List Host.Cell} {lo : Nat} (w : cellsFrom lo m = true) (a : Nat) (b : Byte) :
    cellsFrom (min lo a) (writeCell m a b) = true := by
  induction m generalizing lo with
  | nil =>
    unfold writeCell
    split
    · rfl
    · next ne => simp [cellsFrom, ne]
  | cons c rest ih =>
    obtain ⟨q, v⟩ := c
    have w' := w
    simp only [cellsFrom, Bool.and_eq_true, decide_eq_true_eq] at w
    unfold writeCell
    split
    · next lt =>
      split
      · exact cellsFrom_mono (Nat.min_le_left _ _) w'
      · next ne =>
        simp only [cellsFrom, Bool.and_eq_true, decide_eq_true_eq]
        exact ⟨⟨Nat.min_le_right _ _, ne⟩, ⟨⟨lt, w.1.2⟩, w.2⟩⟩
    · next nlt =>
      split
      · next e =>
        subst e
        split
        · exact cellsFrom_mono (by omega) w.2
        · next ne =>
          simp only [cellsFrom, Bool.and_eq_true, decide_eq_true_eq]
          exact ⟨⟨Nat.min_le_right _ _, ne⟩, w.2⟩
      · next ne =>
        simp only [cellsFrom, Bool.and_eq_true, decide_eq_true_eq]
        refine ⟨⟨by omega, w.1.2⟩, ?_⟩
        have := ih w.2
        exact cellsFrom_mono (by omega) this

/-- Writing a byte keeps the canonical form. -/
theorem wf_writeCell {m : List Host.Cell} (w : Memory.wf m = true) (a : Nat) (b : Byte) :
    Memory.wf (writeCell m a b) = true := by
  have h := cellsFrom_writeCell w a b
  exact cellsFrom_mono (Nat.zero_le _) h

/-- Writing bytes keeps the canonical form. -/
theorem wf_writeCells {m : List Host.Cell} (w : Memory.wf m = true) (a : Nat) (bs : List Byte) :
    Memory.wf (writeCells m a bs) = true := by
  induction bs generalizing m a with
  | nil => exact w
  | cons b bs ih => exact ih (wf_writeCell w a b) (a + 1)

theorem cellsFrom_filter (p : Host.Cell → Bool) {m : List Host.Cell} {lo : Nat} (w : cellsFrom lo m = true) :
    cellsFrom lo (m.filter p) = true := by
  induction m generalizing lo with
  | nil => rfl
  | cons c rest ih =>
    simp only [cellsFrom, Bool.and_eq_true, decide_eq_true_eq] at w
    rw [List.filter_cons]
    split
    · simp only [cellsFrom, Bool.and_eq_true, decide_eq_true_eq]
      exact ⟨w.1, ih w.2⟩
    · exact ih (cellsFrom_mono (by omega) w.2)

/-- Blanking a range keeps the canonical form. -/
theorem wf_zeroCells {m : List Host.Cell} (w : Memory.wf m = true) (a n : Nat) : Memory.wf (zeroCells m a n) = true :=
  cellsFrom_filter _ w

/-- Copying a range keeps the canonical form. -/
theorem wf_copyCells {m : List Host.Cell} (w : Memory.wf m = true) (src dst n : Nat) :
    Memory.wf (copyCells m src dst n) = true := by
  unfold copyCells
  generalize hz : zeroCells m dst n = z
  have wz : Memory.wf z = true := hz ▸ wf_zeroCells w dst n
  clear hz
  induction (m.filter fun c => decide (src ≤ c.1) && decide (c.1 < src + n)) generalizing z with
  | nil => exact wz
  | cons c rest ih => exact ih _ (wf_writeCell wz _ _)

/-- The write of bytes to local memory keeps the canonical form. -/
theorem State.wf_writeLoc {s : State} (w : Memory.wf s.mem = true) (l : Nat) (bs : List Byte) :
    Memory.wf (s.writeLoc l bs).mem = true := wf_writeCells w l bs

/-- Marking words poisoned leaves memory as it is. -/
theorem State.poisonLoc_mem (s : State) (l n : Nat) : (s.poisonLoc l n).mem = s.mem := by
  unfold State.poisonLoc; split <;> rfl

/-- Reset memory lists nothing, which is canonical. -/
theorem wf_reset : Memory.wf State.reset.mem = true := rfl

/-! ## Reading and writing several bytes -/

theorem readCell_writeCells {m : List Host.Cell} (w : Memory.wf m = true) (a k : Nat) (bs : List Byte) :
    readCell (writeCells m a bs) k = if a ≤ k ∧ k < a + bs.length then bs.getD (k - a) 0 else readCell m k := by
  induction bs generalizing m a with
  | nil => rw [if_neg (by simp only [List.length_nil]; omega)]; rfl
  | cons b bs ih =>
    unfold writeCells
    rw [ih (wf_writeCell w a b), readCell_writeCell w]
    by_cases h : k = a
    · subst h
      rw [if_neg (by omega), if_pos rfl, if_pos (by simp)]
      simp
    · rw [if_neg h]
      by_cases h2 : a ≤ k ∧ k < a + (b :: bs).length
      · rw [if_pos h2, if_pos (by simp at h2; omega)]
        obtain ⟨j, rfl⟩ : ∃ j, k = a + 1 + j := ⟨k - (a + 1), by omega⟩
        have e1 : a + 1 + j - (a + 1) = j := by omega
        have e2 : a + 1 + j - a = j + 1 := by omega
        rw [e1, e2]; rfl
      · rw [if_neg h2, if_neg (by simp at h2; omega)]

/-- Outside the bytes written, memory reads as before. -/
theorem readCell_writeCells_other {m : List Host.Cell} (w : Memory.wf m = true) {a k : Nat} (bs : List Byte)
    (h : ¬(a ≤ k ∧ k < a + bs.length)) : readCell (writeCells m a bs) k = readCell m k := by
  rw [readCell_writeCells w, if_neg h]

theorem readCells_length (m : List Host.Cell) (a : Nat) (n : Nat) : (readCells m a n).length = n := by
  induction n generalizing a with
  | zero => rfl
  | succ n ih => exact congrArg (· + 1) (ih (a + 1))

theorem readCells_congr {m m' : List Host.Cell} {a : Nat} {n : Nat}
    (h : ∀ k : Nat, a ≤ k → k < a + n → readCell m k = readCell m' k) : readCells m a n = readCells m' a n := by
  induction n generalizing a with
  | zero => rfl
  | succ n ih =>
    unfold readCells
    rw [h a (Nat.le_refl _) (by omega), ih fun k h1 h2 => h k (by omega) (by omega)]

/-- The bytes written read back. -/
theorem readCells_writeCells {m : List Host.Cell} (w : Memory.wf m = true) (a : Nat) (bs : List Byte) :
    readCells (writeCells m a bs) a bs.length = bs := by
  induction bs generalizing m a with
  | nil => rfl
  | cons b bs ih =>
    unfold writeCells
    simp only [List.length_cons, readCells]
    rw [ih (wf_writeCell w a b) (a + 1), readCell_writeCells (wf_writeCell w a b), if_neg (by omega),
      readCell_writeCell w, if_pos rfl]

end Sys2Proof.Machine
end

