-- ==== Sys2Proof/Laws/Access.lean ====
section
/-! SUPPORT. Access.lean: what translating, marking, reading and writing for a hart's access can change, said once for each
operation. -/

namespace Sys2Proof.Machine

/-- `t` is `s` but for what a translation may fill: the caches of cores, walkers and stacks, and the access counters. -/
def State.Cached (s t : State) : Prop := t = { s with cores := t.cores, walkers := t.walkers, stack := t.stack }

theorem State.Cached.refl (s : State) : s.Cached s := rfl

theorem State.Cached.trans {s t u : State} (a : s.Cached t) (b : t.Cached u) : s.Cached u := by
  unfold State.Cached at *; rw [b, a]

theorem State.Cached.hart {s t : State} (h : s.Cached t) : t.hart = s.hart := by rw [h]
theorem State.Cached.mem {s t : State} (h : s.Cached t) : t.mem = s.mem := by rw [h]
theorem State.Cached.parked {s t : State} (h : s.Cached t) : t.parked = s.parked := by rw [h]
theorem State.Cached.lag {s t : State} (h : s.Cached t) : t.lag = s.lag := by rw [h]
theorem State.Cached.badUnits {s t : State} (h : s.Cached t) : t.badUnits = s.badUnits := by rw [h]
theorem State.Cached.poisoned {s t : State} (h : s.Cached t) : t.poisoned = s.poisoned := by rw [h]

theorem State.Cached.setWalkers {s t : State} (h : s.Cached t) (w : Vector Walker 32) : s.Cached { t with walkers := w } :=
  h.trans rfl

theorem State.onCore_cached (s : State) (c : BitVec 7) (f : Core → Core) : s.Cached (s.onCore c f) := rfl
theorem State.onStack_cached (s : State) (c : BitVec 4) (f : Stack → Stack) : s.Cached (s.onStack c f) := rfl

theorem State.onTlb_cached (s : State) (p : Sorter) (f : List TlbEntry → List TlbEntry) : s.Cached (s.onTlb p f) := by
  cases p <;> rfl

theorem State.countWord_cached (s : State) (crown : Bool) (l : Nat) : s.Cached (s.countWord crown l) := by
  unfold State.countWord; split <;> rfl

theorem State.foldl_cached {α : Type} (f : State → α → State) (h : ∀ (s : State) a, s.Cached (f s a)) (l : List α) (s : State) :
    s.Cached (l.foldl f s) := by
  induction l generalizing s with
  | nil => exact .refl s
  | cons a l ih => exact (h s a).trans (ih _)

theorem State.countAccess_cached (s : State) (crown : Bool) (l n : Nat) : s.Cached (s.countAccess crown l n) := by
  unfold State.countAccess; split
  · exact State.foldl_cached _ (fun t _ => t.countWord_cached _ _) _ s
  · rfl

theorem State.walk_cached (s : State) (sp : Space) (crown : Bool) (va : Word) : s.Cached (s.walk sp crown va).2 := by
  unfold State.walk
  split
  · rfl
  · dsimp only
    have h := State.foldl_cached (fun s l => s.countWord crown l) (fun t l => t.countWord_cached crown l)
    split
    · exact ((h _ _).setWalkers _).trans (State.onTlb_cached _ _ _)
    · exact (h _ _).setWalkers _

/-- A translation fills caches and counts accesses, and nothing else. -/
theorem State.translate_cached (s : State) (sp : Space) (crown : Bool) (n : Need) (va : Word) :
    s.Cached (s.translate sp crown n va).2 := by
  unfold State.translate
  cases hf : (s.tlb sp.sorter).find? (fun (t : TlbEntry) => t.hits (asidOf sp.ptbase) va) with
  | some t =>
    dsimp only
    split <;> rfl
  | none =>
    have h := s.walk_cached sp crown va
    dsimp only
    split
    · split <;> exact h
    · exact h

/-- With nothing posted, no walk meets a posted store. -/
theorem State.walkMeetsStore_nil (s : State) (sp : Space) (va : Word) (h : s.hart.stores = []) :
    s.walkMeetsStore sp va = false := by
  unfold State.walkMeetsStore State.walkReadsStore
  rw [h, List.isEmpty_nil, if_pos rfl, Bool.and_false]

/-- With nothing posted, reaching bytes fills caches and counts accesses, and nothing else. -/
theorem State.reach_cached (s : State) (g : Agent) (need : Need) (va : Word) (n : Nat) (hs : s.hart.stores = []) :
    s.Cached (s.reach g need va n).2 := by
  unfold State.reach
  have h := s.translate_cached (s.space g) (!g.isBrim) need va
  simp only [s.walkMeetsStore_nil _ va hs, Bool.and_false, Bool.false_and, Bool.false_eq_true, if_false]
  split
  · rfl
  · split
    · split
      · rfl
      · split <;> rfl
    · split
      · rfl
      · split
        · next e => rw [e] at h; split <;> exact h
        · next e => rw [e] at h; exact h
        · next e => rw [e] at h; exact h
        · next e => rw [e] at h; exact h

/-- What a scalar access reaches holds as many bytes as it asked for. -/
theorem State.reach_len (s : State) (g : Agent) (need : Need) (va : Word) (n : Nat) {p : Piece} {t : State}
    (h : s.reach g need va n = (.ok p, t)) : p.len = n := by
  unfold State.reach at h
  split at h
  · cases h
  · split at h
    · split at h
      · cases h
      · split at h
        · cases h; rfl
        · cases h
    · split at h
      · cases h
      · dsimp only at h
        split at h
        · cases h
        · split at h
          · split at h
            · cases h; rfl
            · cases h
          · cases h
          · cases h
          · cases h

/-- With nothing posted, the checks of a scalar access that pass end the walk waited for, fill caches and count accesses, and
nothing else. -/
theorem State.scalarReach_ok (s : State) {waits : Bool} {need : Need} {atomic : Bool} {va : Word} {n align : Nat}
    {p : Piece} {t : State} (hs : s.hart.stores = []) (h : s.scalarReach waits need atomic va n align = (.ok p, t)) :
    ∃ u, s.Cached u ∧ t = u.onHart fun h => { h with walked := false } := by
  unfold State.scalarReach at h
  split at h
  · cases h
  · split at h
    · cases h
    · split at h
      · cases h
      · split at h
        · cases h
        · have hc := s.reach_cached .scalar need va n hs
          split at h
          · next e => rw [e] at hc; cases h; exact ⟨_, hc, rfl⟩
          · cases h

theorem toBytes_length (w n : Nat) : (toBytes w n).length = n := by
  induction n generalizing w with
  | zero => rfl
  | succ n ih => exact congrArg (· + 1) (ih _)

theorem bytesOf_length (w : Word) (n : Nat) : (bytesOf w n).length = n := toBytes_length _ _

/-- A and D set: the hart and the other harts are as they were. -/
theorem State.markUsed_frame (s : State) (sp : Space) (write : Bool) (e : TlbEntry) :
    (s.markUsed sp write e).hart = s.hart ∧ (s.markUsed sp write e).parked = s.parked ∧
      (s.markUsed sp write e).lag = s.lag := by
  unfold State.markUsed
  generalize (if write = true then (0xC0 : Word) else 0x40) = want
  dsimp only
  split
  · exact ⟨rfl, rfl, rfl⟩
  · have c := s.countWord_cached sp.sorter.isCore (e.ea / 32 * 32)
    generalize s.countWord sp.sorter.isCore (e.ea / 32 * 32) = z at c
    have h := (z.writeLoc e.ea (bytesOf (s.pte e.ea ||| want) 8)).onTlb_cached sp.sorter
    exact ⟨(h _).hart.trans c.hart, (h _).parked.trans c.parked, (h _).lag.trans c.lag⟩

/-- A and D set: memory outside the page-table entry reads as before, and keeps its form. -/
theorem State.markUsed_mem (s : State) (sp : Space) (write : Bool) (e : TlbEntry) (w : Memory.wf s.mem = true) :
    Memory.wf (s.markUsed sp write e).mem = true ∧
      ∀ k : Nat, ¬(e.ea ≤ k ∧ k < e.ea + 8) → readCell (s.markUsed sp write e).mem k = readCell s.mem k := by
  unfold State.markUsed
  generalize (if write = true then (0xC0 : Word) else 0x40) = want
  dsimp only
  split
  · exact ⟨w, fun _ _ => rfl⟩
  · have c := (s.countWord_cached sp.sorter.isCore (e.ea / 32 * 32)).mem
    generalize s.countWord sp.sorter.isCore (e.ea / 32 * 32) = z at c
    rw [((z.writeLoc e.ea (bytesOf (s.pte e.ea ||| want) 8)).onTlb_cached sp.sorter _).mem]
    show Memory.wf (writeCells z.mem _ _) = true ∧ ∀ k, _ → readCell (writeCells z.mem _ _) k = _
    rw [c]
    refine ⟨wf_writeCells w _ _, fun k hk => readCell_writeCells_other w _ ?_⟩
    rw [bytesOf_length]; exact hk

theorem State.markPiece_frame (s : State) (g : Agent) (write : Bool) (p : Piece) :
    (s.markPiece g write p).hart = s.hart ∧ (s.markPiece g write p).parked = s.parked ∧
      (s.markPiece g write p).lag = s.lag := by
  unfold State.markPiece
  split
  · exact s.markUsed_frame _ _ _
  · exact ⟨rfl, rfl, rfl⟩

/-- A and D set for a piece: memory outside the entry of its page reads as before, and keeps its form. -/
theorem State.markPiece_mem (s : State) (g : Agent) (write : Bool) (p : Piece) (w : Memory.wf s.mem = true) :
    Memory.wf (s.markPiece g write p).mem = true ∧
      ∀ k : Nat, (∀ e, p.page = some e → ¬(e.ea ≤ k ∧ k < e.ea + 8)) →
        readCell (s.markPiece g write p).mem k = readCell s.mem k := by
  unfold State.markPiece
  split
  · next e he =>
    have h := s.markUsed_mem (s.space g) write e w
    exact ⟨h.1, fun k hk => h.2 k (hk e he)⟩
  · exact ⟨w, fun _ _ => rfl⟩

/-- With nothing posted, performing the posted stores leaves the state as it is. -/
theorem State.performStores_nil (s : State) (h : s.hart.stores = []) : s.performStores = s := by
  unfold State.performStores
  rw [h]
  show { s with hart := { s.hart with stores := [] } } = s
  rw [← h]

/-- Only memory, its marks of errors and the writes counted at watched words may differ. -/
def State.Written (s t : State) : Prop :=
  t = { s with mem := t.mem, badUnits := t.badUnits, poisoned := t.poisoned, watched := t.watched }

theorem State.Written.trans {s t u : State} (h : s.Written t) (k : t.Written u) : s.Written u := by
  unfold State.Written at *
  exact k.trans (by rw [h])

/-- A posted store performed writes memory alone. -/
theorem State.performOne_written (s : State) (p : PostedStore) : s.Written (s.performOne p) := by
  unfold State.performOne
  split <;> rfl

/-- Posted stores performed change memory, its marks of errors, the writes counted at watched words, and the list of posted
stores. -/
theorem State.performStores_frame (s : State) :
    s.performStores = { s with
      hart := { s.hart with stores := [] }, mem := s.performStores.mem, badUnits := s.performStores.badUnits
      poisoned := s.performStores.poisoned, watched := s.performStores.watched } := by
  unfold State.performStores
  generalize s.hart.stores = l
  have h : ∀ t : State, t.Written (l.foldl State.performOne t) := by
    induction l with
    | nil => intro t; rfl
    | cons p l ih => exact fun t => (t.performOne_written p).trans (ih _)
  exact h _

/-- A posted store performed keeps the canonical form of memory. -/
theorem State.wf_performOne (s : State) (p : PostedStore) (w : Memory.wf s.mem = true) :
    Memory.wf (s.performOne p).mem = true := by
  unfold State.performOne
  split
  · exact s.wf_writeLoc w _ _
  · exact w

theorem State.wf_performStores (s : State) (w : Memory.wf s.mem = true) : Memory.wf s.performStores.mem = true := by
  unfold State.performStores
  have h : ∀ (l : List PostedStore) (t : State), Memory.wf t.mem = true →
      Memory.wf (l.foldl State.performOne t).mem = true := by
    intro l
    induction l with
    | nil => exact fun _ ht => ht
    | cons p l ih => exact fun t ht => ih _ (t.wf_performOne p ht)
  exact h _ _ w

end Sys2Proof.Machine
end

