-- ==== Sys2Proof/Tests/Slice0.lean ====
section
/-! SUPPORT. Slice0.lean: the model's own tests: ill-formed terms that the checks refuse, words of the spec's encodings,
worked examples of the spec, and a witness for the hypotheses of every statement. -/

namespace Sys2Proof.Tests

open Sys2Proof Sys2Proof.Machine

set_option Elab.async false

/-! ## WellFormed: one ill-formed term for each check -/

/-- R58: scope codes 11 to 15 are reserved. -/
theorem test_wf_scope :
    (∀ i ∈ [Instr.ldAcqW 1 2 11, .ldAcqD 1 2 11, .stRelW 1 2 11, .stRelD 1 2 15, .amoadd 0 1 2 3 11, .amoand 0 1 2 3 11,
        .amoor 0 1 2 3 11, .amoxor 0 1 2 3 11, .amomin 0 1 2 3 11, .amomax 0 1 2 3 11, .amoswap 0 1 2 3 11,
        .amocas 0 1 2 3 11, .amoaddAcqrel 0 1 2 3 11, .amoandAcqrel 0 1 2 3 11, .amoorAcqrel 0 1 2 3 11,
        .amoxorAcqrel 0 1 2 3 11, .amominAcqrel 0 1 2 3 11, .amomaxAcqrel 0 1 2 3 11, .amoswapAcqrel 0 1 2 3 11,
        .amocasAcqrel 0 1 2 3 11], i.wf = false) ∧
    ∀ i ∈ [Instr.fenceSv 11, .fenceVs 12, .fenceVv 13, .fenceAll 14, .icsync 15, .awadd 1 2 11, .waitGen 1 2 11,
        .waitNe 1 2 11], i.wf = false := by decide +kernel

/-- R103: a loop body of fewer than 6 bytes has no encoding. R58: `icsync` has no scope 5 and 6. R60: `c.addi` of 0, and
`c.jr` and `c.jalr` of x0, are reserved. -/
theorem test_wf_scalar :
    ∀ i ∈ [Instr.loop 0 1 2, .icsync 5, .icsync 6, .cAddi 1 0, .cJr 0, .cJalr 0], i.wf = false := by decide +kernel

/-- R59: the reserved codes of VCFG. -/
theorem test_wf_vcfg :
    ∀ i ∈ [Instr.vcfg 1 3 2 0, .vcfg 1 0 5 0, .vcfg 1 0 7 0, .vcfg 1 0 0 1, .vcfg 1 0 3 1, .vcfg 1 0 4 1], i.wf = false := by
  decide +kernel

/-- R43: a mask field names m0 to m23. -/
theorem test_wf_masks :
    (∀ i ∈ [Instr.viota 0 1 24 0 0, .vcmpEq 24 1 2 0 0, .vcmpNe 24 1 2 0 0, .vcmpLt 24 1 2 0 0, .vcmpGe 24 1 2 0 0,
        .vcmpLtn 24 1 2 0 0, .vcmpGen 24 1 2 0 0, .vfcmpEq 24 1 2 0 0, .vfcmpNe 24 1 2 0 0, .vfcmpLt 24 1 2 0 0,
        .vfcmpLe 24 1 2 0 0, .vfcmpGt 24 1 2 0 0, .vfcmpGe 24 1 2 0 0, .vfcmpUn 31 1 2 0 0], i.wf = false) ∧
    ∀ i ∈ [Instr.whileLt 24 1 2, .whileLe 24 1 2, .whileLtn 24 1 2, .whileLen 24 1 2, .mand 24 1 2 0, .mor 1 24 2 0,
        .mxor 1 2 24 0, .mandn 24 1 2 0, .mnot 24 1 0, .mmov 1 24 0, .mff 24 1 0, .mset 24 0, .mclr 24 0, .mbset 24 1,
        .mbclr 24 1, .mpop 1 24 0, .mfirst 1 24 0, .mbrk 1 24 0], i.wf = false := by decide +kernel

/-- R127: `vcvt` between a format and itself, and in place between widths. R55: the reserved window operations. R358: a
probe names a mask but m0. R50: the format codes that the matrix instructions do not have. -/
theorem test_wf_others :
    (∀ i ∈ [Instr.vcvt 0 1 1 2 3 0 0, .vcvt 0 1 2 3 3 0 0, .vwin 5 1 2, .vwin 7 1 2, .vwin 11 1 2, .stprobe 0 1 2 3],
      i.wf = false) ∧
    ∀ i ∈ [Instr.mma 0 1 2 7 0 0 0 0, .mma 0 1 2 0 9 0 0 0, .mmas 0 1 2 3 7 0 0 0 0, .mmas 0 1 2 3 0 15 0 0 0,
      .mmag 0 1 2 3 7 0 0 0 0, .mmag 0 1 2 3 0 10 0 0 0, .mmax 0 1 2 3 12 0 0 0 0, .mmax 0 1 2 3 0 7 0 0 0],
      i.wf = false := by decide +kernel

/-! ## Decode: a word written out from the encoding of every row that has one of its own -/

/-- R50: the matrix instructions, whose words are 64 bits. -/
theorem test_words_matrix :
    ∀ p ∈ ([(0x10000E000, .mshape 1), (0xE0C0, .mzero 1), (0x88800104E140, .mma 1 4 8 4 4 0 0 1),
        (0x8800E02E1C0, .mmas 1 2 16 3 4 4 0 0 0), (0x44660102E240, .mmag 1 2 8 6 3 2 0 1 0),
        (0x30A02603E280, .mmax 0 3 16 9 5 8 1 0 0), (0x7000CE300, .mtv 12 0 7), (0x1F0014E3C0, .mvt 1 20 31),
        (0xE400, .msync)] : List (Nat × Instr)), decodeTableWord 64 p.1 = some p.2 := by decide +kernel

/-- Words made of the fixed bits and operand fields that the opcode table gives each row (R47 to R60). -/
theorem test_words_1 :
    ∀ p ∈ ([(32, 0x125BC000, .add 27 18 4), (32, 0x6702C001, .sub 2 24 25), (32, 0x206FC002, .and 15 3 8),
      (32, 0x61CFC003, .or 15 14 24), (32, 0x5199C004, .xor 25 12 20), (32, 0x186FC005, .andn 15 3 6),
      (32, 0x39AC006, .sll 26 28 0), (32, 0x31B3C007, .srl 19 13 12), (32, 0x6300C008, .sra 0 24 24),
      (32, 0x59C8C009, .slt 8 14 22), (32, 0x5F27C00A, .sltn 7 25 23), (32, 0x4BC3C00B, .min 3 30 18),
      (32, 0x7140C00C, .minn 0 10 28), (32, 0x14C00D, .max 20 0 0), (32, 0x441EC00E, .maxn 30 0 17),
      (32, 0x7195C010, .mul 21 12 28), (32, 0x1BEDC011, .mulh 13 31 6), (32, 0x5C10C012, .mulhn 16 0 23),
      (32, 0x1F0EC014, .div 14 24 7), (32, 0x79F1C015, .divn 17 15 30), (32, 0x1D67C016, .rem 7 11 7),
      (32, 0x54F8C017, .remn 24 7 21), (32, 0x1DEC018, .clz 30 14), (32, 0x13DC019, .ctz 29 9), (32, 0xDC01A, .popc 13 0),
      (32, 0x35DC01B, .sextB 29 26), (32, 0x23DC01C, .sextH 29 17), (32, 0x283C01D, .sextW 3 20),
      (32, 0xB4C01E, .zextW 20 5), (32, 0x7EFBC020, .addw 27 23 31), (32, 0x2477C021, .subw 23 3 9),
      (32, 0x2B97C022, .sllw 23 28 10), (32, 0x7ED0C023, .srlw 16 22 31), (32, 0x77CDC024, .sraw 13 30 29),
      (32, 0x435DC025, .mulw 29 26 16), (32, 0x54C9C026, .divw 9 6 21), (32, 0x265FC027, .divnw 31 18 9),
      (32, 0x71FBC028, .remw 27 15 28), (32, 0x7A0CC029, .remnw 12 16 30), (32, 0x9761C0BD, .addi 1 27 4797),
      (32, 0x3EF9C106, .andi 25 23 246), (32, 0x6AA5C115, .ori 5 21 421), (32, 0x8F96C12C, .xori 22 28 572),
      (32, 0xAEEBC131, .slti 11 23 689), (32, 0x72B0C141, .sltni 16 21 449), (32, 0xCB0C15D, .slli 16 5 61),
      (32, 0x56FC16B, .srli 15 11 27), (32, 0x1E1C174, .srai 1 15 4)] : List (Nat × Nat × Instr)),
      decodeTableWord p.1 p.2.1 = some p.2.2 := by decide +kernel

/-- Words made of the fixed bits and operand fields that the opcode table gives each row (R47 to R60). -/
theorem test_words_2 :
    ∀ p ∈ ([(32, 0xB41BC1FD, .lhi 27 184445), (32, 0x9D72C24A, .pcadd 18 161226), (32, 0x6685C282, .ldB 5 20 402),
      (32, 0x80FFC290, .ldBn 31 7 512), (32, 0xC4D1C2AE, .ldH 17 6 798), (32, 0xDE27C2B6, .ldHn 7 17 886),
      (32, 0x817EC2CD, .ldW 30 11 525), (32, 0x916EC2DE, .ldWn 14 11 590), (32, 0x46B1C2E9, .ldD 17 21 281),
      (32, 0xF6E0C306, .stB 0 23 982), (32, 0xCB7AC31F, .stH 26 27 815), (32, 0xE3D7C328, .stW 23 30 904),
      (32, 0xCC90C33C, .stD 16 4 828), (32, 0xCDC381, .ldAcqW 13 6 1), (32, 0x172C38A, .ldAcqD 18 11 2),
      (32, 0x81FAC391, .stRelW 26 15 9), (32, 0x8231C399, .stRelD 17 17 9), (32, 0x9819C407, .beq 25 0 1223),
      (32, 0xA0B1C432, .bne 17 5 1298), (32, 0x2F62C459, .blt 2 27 377), (32, 0x8F3BC47A, .bge 27 25 1146),
      (32, 0xED01C49A, .bltn 1 8 1914), (32, 0xF2A2C4A2, .bgen 2 21 1922), (32, 0xDC0EC4C0, .bbs 14 0 1760),
      (32, 0xC308C4E7, .bbc 8 24 1543), (32, 0x44C3C566, .jal 3 70502), (32, 0x9CABC5A5, .jalr 11 5 5029),
      (32, 0x4A0C620, .loop 0 5 160), (32, 0xF8B5C68A, .amoadd 1 21 30 5 10), (32, 0xA5D6C697, .amoand 1 22 9 14 7),
      (32, 0xC09C6A5, .amoor 0 9 3 0 5), (32, 0x64C8C6B4, .amoxor 0 8 25 6 4), (32, 0xDE1FC6C9, .amomin 1 31 23 16 9),
      (32, 0x6BE0C6D0, .amomax 0 0 26 31 0), (32, 0x1037C6E2, .amoswap 0 23 4 1 2), (32, 0x5A15C6F8, .amocas 0 21 22 16 8),
      (32, 0x9FFFC708, .amoaddAcqrel 1 31 7 31 8), (32, 0x1E14C716, .amoandAcqrel 0 20 7 16 6),
      (32, 0xCB2AC72A, .amoorAcqrel 1 10 18 25 10), (32, 0x6E9C733, .amoxorAcqrel 0 9 1 23 3),
      (32, 0x8522C741, .amominAcqrel 1 2 1 9 1), (32, 0x77C9C752, .amomaxAcqrel 0 9 29 30 2),
      (32, 0x4904C768, .amoswapAcqrel 0 4 18 8 8), (32, 0xEC32C773, .amocasAcqrel 1 18 27 1 3),
      (32, 0x9000C780, .fenceSv 9), (32, 0x2000C790, .fenceVs 2), (32, 0x9000C7A0, .fenceVv 9),
      (32, 0xC7B0, .fenceAll 0)] : List (Nat × Nat × Instr)),
      decodeTableWord p.1 p.2.1 = some p.2.2 := by decide +kernel

/-- Words made of the fixed bits and operand fields that the opcode table gives each row (R47 to R60). -/
theorem test_words_3 :
    ∀ p ∈ ([(32, 0xC7C6, .fenceStk 6), (32, 0x1000C7D0, .icsync 1), (32, 0xC800, .ecall), (32, 0xC810, .ebreak),
      (32, 0xC820, .eret), (32, 0xC830, .uret), (32, 0xC840, .pause), (32, 0x3412C895, .csrr 18 437),
      (32, 0xE5B2C8A6, .csrw 18 1830 13), (32, 0x7C7EC8D5, .csrs 30 1013 3), (32, 0x6130C8EF, .csrc 16 783 9),
      (32, 0x153C903, .fadd 3 19 10 0), (32, 0x3389C904, .fsub 0 9 28 12), (32, 0x14DBC909, .fmul 1 27 6 5),
      (32, 0x67F2C90F, .fdiv 3 18 31 25), (32, 0x8AC911, .fsqrt 1 10 4), (32, 0x1915C914, .fmin 0 21 8 6),
      (32, 0x699DC91A, .fmax 2 29 12 26), (32, 0x2FBCC91F, .fsgnj 3 28 29 11), (32, 0x562FC923, .fsgnjn 3 15 17 21),
      (32, 0x7E27C924, .fsgnjx 0 7 17 31), (32, 0x5C22C928, .feq 0 2 1 23), (32, 0x14BDC92E, .flt 2 29 5 5),
      (32, 0x1918C931, .fle 1 24 8 6), (32, 0x270C937, .fclass 3 16 19), (32, 0x16AC939, .fcvtI 1 0 10 11),
      (32, 0x127C93F, .fcvtF 3 0 7 9), (32, 0xE78C943, .fcvtFf 3 3 24 19), (32, 0xF1E4C9C8, .fma 1 4 15 28 18),
      (32, 0xE06AC985, .fms 1 10 3 24 1), (32, 0x99BC9FE, .fnma 0 27 12 2 31), (32, 0x9344C9AB, .fnms 1 4 26 4 10),
      (32, 0x3D029, .vcfg 3 1 2 1), (32, 0x4A27D088, .vadd 0 7 17 18 4 0), (32, 0xA17CD095, .vsub 1 28 11 8 2 1),
      (32, 0xF46ED0AE, .vmul 1 14 3 29 7 0), (32, 0x643AD0B4, .vmulh 0 26 1 25 2 0),
      (32, 0xD402D0C6, .vmulhn 1 2 0 21 3 0), (32, 0xF321D0D2, .vmin 1 1 25 28 1 0),
      (32, 0xFE4DD0E2, .vminn 1 13 18 31 1 0), (32, 0x16A7D0F3, .vmax 0 7 21 5 1 1),
      (32, 0x8DBDD10E, .vmaxn 1 29 13 3 7 0), (32, 0xFE3DD11C, .vand 1 29 17 31 6 0), (32, 0xA2CFD124, .vor 1 15 22 8 2 0),
      (32, 0x5141D130, .vxor 0 1 10 20 0 0), (32, 0xFFA9D14B, .vsll 1 9 29 31 5 1), (32, 0x398AD156, .vsrl 0 10 12 14 3 0),
      (32, 0x755FD169, .vsra 0 31 10 29 4 1)] : List (Nat × Nat × Instr)),
      decodeTableWord p.1 p.2.1 = some p.2.2 := by decide +kernel

/-- Words made of the fixed bits and operand fields that the opcode table gives each row (R47 to R60). -/
theorem test_words_4 :
    ∀ p ∈ ([(32, 0xD06D17D, .vandn 0 6 8 3 6 1), (32, 0xFF91D18D, .vdiv 1 17 28 31 6 1),
      (32, 0x5568D193, .vdivn 0 8 11 21 1 1), (32, 0x24C7D1A4, .vrem 0 7 6 9 2 0), (32, 0xA05FD1BC, .vremn 1 31 2 8 6 0),
      (32, 0x5254D1C5, .vsadd 0 20 18 20 2 1), (32, 0x33C9D1D0, .vsaddn 0 9 30 12 0 0),
      (32, 0x2B3BD1E9, .vssub 0 27 25 10 4 1), (32, 0xA4EAD1F1, .vssubn 1 10 7 9 0 1),
      (32, 0xCB33D200, .vfadd 1 19 25 18 0 0), (32, 0x327D216, .vfsub 0 7 25 0 3 0),
      (32, 0x4762D22A, .vfmul 0 2 27 17 5 0), (32, 0x5009D23D, .vfdiv 0 9 0 20 6 1),
      (32, 0x3DFBD24C, .vfmin 0 27 15 15 6 0), (32, 0x4319D254, .vfmax 0 25 24 16 2 0),
      (32, 0xFAA5D263, .vfsgnj 1 5 21 30 1 1), (32, 0x7C9AD27C, .vfsgnjn 0 26 4 31 6 0),
      (32, 0xED0D28D, .vfma 0 16 22 3 6 1), (32, 0xA49CD292, .vfms 1 28 4 9 1 0), (32, 0xF6E1D2AC, .vfnma 1 1 23 29 6 0),
      (32, 0xF279D2BB, .vfnms 1 25 19 28 5 1), (32, 0xEBD7D2CF, .vmacc 1 23 30 26 7 1),
      (32, 0x152DD2D8, .vmsac 0 13 9 5 4 0), (32, 0x5B75D2E2, .vfscale 0 21 27 22 1 0), (32, 0x8055D30E, .vabs 1 21 2 7 0),
      (32, 0x85B1D305, .vneg 1 17 13 2 1), (32, 0xB71D306, .vnot 0 17 27 3 0), (32, 0xF4AD302, .vclz 0 10 26 1 0),
      (32, 0x1019D30B, .vpopc 0 25 0 5 1), (32, 0x141FD308, .vid 0 31 4 0), (32, 0x1A4BD308, .viota 0 11 18 4 0),
      (32, 0x88D31F, .vfsqrt 0 8 4 7 1), (32, 0x592D316, .vfabs 0 18 12 3 0), (32, 0x8847D316, .vfneg 1 7 2 3 0),
      (32, 0xE0AD319, .vfclass 0 10 16 4 1), (32, 0x93AED31F, .vfround 1 14 29 7 1), (32, 0x96E7D312, .vfexpo 1 7 23 1 0),
      (32, 0x1AAFD31E, .vfmant 0 15 21 7 0), (32, 0xB551D389, .vaddX 1 17 10 13 4 1),
      (32, 0xF688D39F, .vrsubX 1 8 20 29 7 1), (32, 0x7A2D3AD, .vmulX 0 2 29 1 6 1),
      (32, 0xF165D3B9, .vsllX 1 5 11 28 4 1), (32, 0xF0C9D3C5, .vfaddX 1 9 6 28 2 1),
      (32, 0x6E2BD3D3, .vfrsubX 0 11 17 27 1 1), (32, 0xDDD3D3E1, .vfmulX 1 19 14 23 0 1),
      (32, 0x727ED3F9, .vfmaX 0 30 19 28 4 1), (32, 0x4864DC9F, .vcvt 0 2 9 4 3 7 1),
      (32, 0x5F15D400, .vcmpEq 21 24 23 0 0)] : List (Nat × Nat × Instr)),
      decodeTableWord p.1 p.2.1 = some p.2.2 := by decide +kernel

/-- Words made of the fixed bits and operand fields that the opcode table gives each row (R47 to R60). -/
theorem test_words_5 :
    ∀ p ∈ ([(32, 0x32D0D414, .vcmpNe 16 22 12 2 0), (32, 0x6CA1D42B, .vcmpLt 1 5 27 5 1),
      (32, 0x43F4D43C, .vcmpGe 20 31 16 6 0), (32, 0xD04D44E, .vcmpLtn 4 8 3 7 0), (32, 0x7F15D45D, .vcmpGen 21 24 31 6 1),
      (32, 0x56C7D487, .vfcmpEq 7 22 21 3 1), (32, 0x7F6DD49F, .vfcmpNe 13 27 31 7 1),
      (32, 0x30A4D4A4, .vfcmpLt 4 5 12 2 0), (32, 0x4FA3D4BE, .vfcmpLe 3 29 19 7 0),
      (32, 0x3663D4C7, .vfcmpGt 3 19 13 3 1), (32, 0x5537D4D2, .vfcmpGe 23 9 21 1 0),
      (32, 0x440ED4E3, .vfcmpUn 14 0 17 1 1), (32, 0x4814D500, .whileLt 20 0 18), (32, 0x7E68D508, .whileLe 8 19 31),
      (32, 0x18A4D510, .whileLtn 4 5 6), (32, 0x44C9D518, .whileLen 9 6 17), (32, 0x15D5D586, .mand 21 14 5 6),
      (32, 0x48C3D58B, .mor 3 6 18 3), (32, 0xC03D592, .mxor 3 0 3 2), (32, 0x5EA9D59C, .mandn 9 21 23 4),
      (32, 0x202D5A1, .mnot 2 16 1), (32, 0x20DD5AA, .mmov 13 16 2), (32, 0xAD5B4, .mff 10 0 4), (32, 0xED5BD, .mset 14 5),
      (32, 0xAD5C3, .mclr 10 3), (32, 0x5003D5C8, .mbset 3 20), (32, 0x11D5D0, .mbclr 17 0),
      (32, 0x2F7D5DD, .mpop 23 23 5), (32, 0x26ED5E7, .mfirst 14 19 7), (32, 0x136D5ED, .mbrk 22 9 5),
      (32, 0x3A75D608, .vslideup 0 21 19 14 4 0), (32, 0x4015D617, .vslidedn 0 21 0 16 3 1),
      (32, 0x7D8AD62D, .vperm 0 10 12 31 6 1), (32, 0x83F7D63B, .vcompress 1 23 31 5 1),
      (32, 0x82E2D647, .vexpand 1 2 23 3 1), (32, 0x80F4D65F, .vconf 1 20 7 7 1), (32, 0x280D667, .vsprs 0 0 20 3 1),
      (32, 0x8094D68D, .vredsum 1 20 4 6 1), (32, 0x328D69C, .vredmin 0 8 25 6 0), (32, 0x805AD6AD, .vredminn 1 26 2 6 1),
      (32, 0x17DD6B5, .vredmax 0 29 11 2 1), (32, 0x81BBD6CB, .vredmaxn 1 27 13 5 1), (32, 0x8ED6DC, .vfredsum 0 14 4 6 0),
      (32, 0xAED6E8, .vfredmin 0 14 5 4 0), (32, 0x203D6FB, .vfredmax 0 3 16 5 1), (32, 0x4BD701, .vdup 0 11 2 0 1),
      (32, 0xB0D711, .vext 0 16 5 0 1), (32, 0x96C2D720, .vins 1 2 22 5 0)] : List (Nat × Nat × Instr)),
      decodeTableWord p.1 p.2.1 = some p.2.2 := by decide +kernel

/-- Words made of the fixed bits and operand fields that the opcode table gives each row (R47 to R60). -/
theorem test_words_6 :
    ∀ p ∈ ([(32, 0x82C8D738, .vmv 1 8 22 4 0), (32, 0x40C7D74E, .vmerge 0 7 6 16 7 0), (32, 0x102D750, .vmovcb 2 8 0),
      (32, 0x2DAD76E, .vmovbc 26 22 7), (32, 0x82ABD787, .vscanAdd 1 11 21 3 1), (32, 0x82E1D792, .vscanMax 1 1 23 1 0),
      (32, 0x82F6D7AF, .vscanMin 1 22 23 7 1), (32, 0x810BD7B9, .vfscanAdd 1 11 8 4 1),
      (32, 0x191D7C6, .vfscanMax 0 17 12 3 0), (32, 0x328D7DD, .vfscanMin 0 8 25 6 1),
      (32, 0x58E8D7EF, .vrec 0 8 7 22 7 1), (32, 0x80FBD80A, .vld 1 27 7 5 0), (32, 0x37CD81D, .vldAcq 28 27 6 1),
      (32, 0x818AD82E, .vldV 10 12 7 0), (32, 0x83B8D833, .vldL 24 29 1 1), (32, 0x106D841, .vldNt 6 8 0 1),
      (32, 0x977FD888, .vlds 1 31 27 5 4 0), (32, 0x4BBDD89A, .vldsAcq 29 29 18 5 0), (32, 0xCFC8D8A7, .vldsV 8 30 19 3 1),
      (32, 0x9498D8B3, .vldsL 24 4 5 1 1), (32, 0x59CBD8C5, .vldsNt 11 14 22 2 1), (32, 0x30E3D90A, .vldx 3 7 12 5 0),
      (32, 0x5AA9D910, .vldxB 9 21 22 0 0), (32, 0x1D8AD927, .vldxBd 10 12 7 3 1), (32, 0x8FC5D930, .vldxV 5 30 3 0 0),
      (32, 0xE660D94F, .vldxL 0 19 25 7 1), (32, 0x9AA1D957, .vldxVbd 1 21 6 3 1), (32, 0xC357D96F, .vldxLbd 23 26 16 7 1),
      (32, 0x81CAD98B, .vst 1 10 14 5 1), (32, 0x8103D9A9, .vstV 3 8 4 1), (32, 0x80A3D9B2, .vstL 3 5 1 0),
      (32, 0xEFD9C6, .vstNt 15 7 3 0), (32, 0x97E7DA03, .vsts 1 7 31 5 1 1), (32, 0xA5D1DA28, .vstsV 17 14 9 4 0),
      (32, 0x99D6DA34, .vstsL 22 14 6 2 0), (32, 0x3E43DA4E, .vstsNt 3 18 15 7 0), (32, 0x7C41DA81, .vstx 1 2 31 0 1),
      (32, 0x36FDA95, .vstxB 15 27 0 2 1), (32, 0x3372DAA5, .vstxBd 18 27 12 2 1), (32, 0x9985DABF, .vstxV 5 12 6 7 1),
      (32, 0xE284DACD, .vstxL 4 20 24 6 1), (32, 0x800CDAD3, .vstxVbd 12 0 0 1 1), (32, 0xD621DAE8, .vstxLbd 1 17 21 4 0),
      (32, 0x2089DB00, .vwin 9 4 8), (32, 0x3A80DB1C, .vwred 20 14 6 0), (32, 0xDB20, .vwmerge), (32, 0xDB30, .vwdrop),
      (32, 0x7001DB80, .copyL 1 0 28)] : List (Nat × Nat × Instr)),
      decodeTableWord p.1 p.2.1 = some p.2.2 := by decide +kernel

/-- Words made of the fixed bits and operand fields that the opcode table gives each row (R47 to R60). -/
theorem test_words_7 :
    ∀ p ∈ ([(32, 0x4430DB88, .copy2d 16 1 17), (32, 0x6881DB90, .copyG 1 4 26), (32, 0x7518DB98, .copyS 24 8 29),
      (32, 0xDA2DBA0, .embw 2 13 3), (32, 0x1F4DBAB, .stprobe 3 20 15 0), (32, 0x5D15DBB6, .stfill 21 8 23 6),
      (32, 0x366DBB8, .stctlStream 6 27), (32, 0x511FDBC0, .cname 31 8 20), (32, 0x2294DBC8, .collAllReduce 20 20 8),
      (32, 0x245DBD0, .pmig 5 18), (32, 0x16DDC00, .awarm 13 11), (32, 0x2D1DC09, .awadd 17 22 1),
      (32, 0x81B1DC12, .waitGen 17 13 10), (32, 0x2C8DC19, .waitNe 8 22 1), (32, 0xBFDC20, .carrive 31 5),
      (32, 0x64DC28, .cwait 4 3), (32, 0xDC30, .gbar), (32, 0x3DDC38, .launch 29 1), (32, 0x6DC40, .farmnext 6),
      (32, 0xDC48, .retire), (32, 0xDC50, .bsync), (16, 0x305, .cAddi 6 5), (16, 0x705, .cLi 6 5), (16, 0x851, .cLhi 0 81),
      (16, 0xC3A, .cSlli 0 58), (16, 0x1320, .cSrli 6 32), (16, 0x15A0, .cSrai 3 32), (16, 0x2100, .cAdd 2 0),
      (16, 0x27A0, .cSub 7 2), (16, 0x2810, .cMv 0 1), (16, 0x2E00, .cAnd 4 0), (16, 0x31D0, .cOr 3 5),
      (16, 0x34F0, .cXor 1 7), (16, 0x43D6, .cLdW 3 6 22), (16, 0x4FEE, .cStW 7 7 14), (16, 0x502F, .cLdD 0 47),
      (16, 0x5C11, .cStD 4 17), (16, 0x62E4, .cJ 740), (16, 0x8599, .cBeqz 2 409), (16, 0x942B, .cBnez 2 43),
      (16, 0xA0E0, .cJr 7), (16, 0xA4E0, .cJalr 7), (16, 0xA800, .cRet), (16, 0xAC00, .cNop),
      (16, 0xB000, .cEbreak)] : List (Nat × Nat × Instr)),
      decodeTableWord p.1 p.2.1 = some p.2.2 := by decide +kernel

/-! ## States for the witnesses -/

/-- A page of 1 GiB that maps its addresses to the same locations of stack 0, open to supervisor mode. -/
def page : TlbEntry := ⟨0, 0, 0x40000000, 0x3CF, 0x3FFFF000⟩

/-- A hart of core 0 with some values in its registers. -/
def hart0 : Hart :=
  { Hart.reset 0 with
    live := true
    pc := 0x1000
    x := ((((Vector.replicate 32 0).set 1 0x2000).set 2 3).set 4 0x3000).set 31 0x1200 }

/-- It alone is live; the page is held everywhere, and the word at 0x1100 continues a convoy. -/
def core0 : State :=
  { State.reset with
    hart := hart0
    mem := writeCells [] 0x1100 (toBytes 0x1422D223 4)
    cores := Vector.replicate 128 { Core.reset with tlb := [page] }
    stack := Vector.replicate 16 { Stack.reset with tlb := [page] } }

/-- The hart of a state changed. -/
def withHart (f : Hart → Hart) : State := { core0 with hart := f hart0 }

/-- Two registers more. -/
def withXs (a b : Word) : State := withHart fun h => { h with x := (h.x.set 5 a).set 6 b }

/-- A crown convoy in flight. -/
def crownBusy : State :=
  match execVadd 0 1 2 3 0 0 { core0 with lag := true } with
  | .next t => t
  | _ => core0

/-- A brim convoy in flight. -/
def brimBusy : State :=
  match execVadd 1 1 2 3 0 0 { core0 with lag := true } with
  | .next t => t
  | _ => core0

/-- Hart 0 waits for `i`, its other state that of `s`. -/
def waitingFor (i : Instr) (s : State) : State := { s with hart := { s.hart with wait := some i } }

/-- An instruction is also performed in the event that ends its wait. -/
theorem performed_by_event (s : State) (i : Instr) (e : HartId → Instr) (h : s.hart.wait = none)
    (a : (waitingFor i s).awake = true) : s.performs i e (Happens (e s.hart.id) (waitingFor i s)) := by
  refine Or.inr ⟨waitingFor i s, s.hart.id, ⟨?_, ?_, ?_⟩, rfl⟩
  · simp [waitingFor, State.focus]
  · simpa [waitingFor, State.focus] using a
  · have w : s = { s with hart := { s.hart with wait := none } } := by rw [← h]
    simpa [waitingFor, State.focus] using w

/-- Waits are left open. -/
def lagging (s : State) : State := { s with lag := true }

/-- Both ways in which the statements let an instruction be performed, for every instruction and its event. -/
theorem witness_performs (i : Instr) (e : HartId → Instr) :
    core0.performs i e (Executes i core0) ∧ core0.performs i e (Happens (e 0) (waitingFor i core0)) ∧
      (lagging core0).performs i e (Happens (e 0) (waitingFor i (lagging core0))) :=
  ⟨Or.inl ⟨rfl, rfl⟩, performed_by_event core0 i e rfl rfl, performed_by_event (lagging core0) i e rfl rfl⟩

/-! ## Witnesses: integer instructions, loads, stores, atomics, fences -/

theorem witness_IntegerResults : core0.unhindered 4 [3, 1, 2] ∧ core0.unhindered 4 [0, 1] := by
  unfold State.unhindered; decide +kernel

theorem witness_DivisionResults : core0.unhindered 4 [3, 1, 2] := by unfold State.unhindered; decide +kernel

theorem witness_ImmediateResults :
    core0.unhindered 4 [3, 1] ∧ (1#5).toNat = 1 + (0#3).toNat ∧ (8#5).toNat = 1 + (7#3).toNat ∧ core0.unhindered 2 [1, 8] := by
  unfold State.unhindered; decide +kernel

/-- A pair by its first part. -/
theorem pair_of_fst {α β : Type} {p : α × β} {a : α} (h : p.1 = a) : p = (a, p.2) := by rw [← h]

/-- What the scalar checks make of an aligned access to the page. -/
def onPage (va n : Nat) : Piece := ⟨BitVec.ofNat 64 va, n, .here va, some page⟩

/-- Stores of 2 bytes posted, with waits left open. -/
def posted : State := lagging (withHart fun h => { h with stores := [⟨0x2000, [1, 2], 0, 0x2000, false⟩] })

theorem witness_LoadResults :
    core0.lag = false ∧ core0.hart.convoys = [] ∧ core0.unhindered 4 [3, 1] ∧ Memory.wf core0.mem = true ∧
      core0.unhindered 2 [1, 8] ∧ core0.unhindered 2 [1, 30] ∧ core0.hart.stores = [] ∧ core0.hart.loading = false ∧
      core0.reachesHere true false ⟨true, false, false⟩ 0x2000 8 (onPage 0x2000 8) 0x2000 core0 ∧
      (core0.markPiece .scalar false (onPage 0x2000 8)).performStores.readFails 0x2000 8 = false := by
  refine ⟨rfl, rfl, ?_, rfl, ?_, ?_, rfl, rfl, ⟨rfl, rfl⟩, by decide +kernel⟩ <;> (unfold State.unhindered; decide +kernel)

/-- The same for a load that ends its wait behind a posted store. -/
theorem witness_LoadResults_posted :
    posted.performs (.ldD 3 1 0) .loadDataReturn (Happens (.loadDataReturn 0) (waitingFor (.ldD 3 1 0) posted)) ∧
      posted.unhindered 4 [3, 1] ∧ Memory.wf posted.mem = true ∧
      posted.reachesHere true false ⟨true, false, false⟩ 0x2000 8 (onPage 0x2000 8) 0x2000 posted ∧
      (posted.markPiece .scalar false (onPage 0x2000 8)).performStores.readFails 0x2000 8 = false :=
  ⟨performed_by_event posted _ _ rfl rfl, by unfold State.unhindered; decide +kernel, rfl, ⟨rfl, rfl⟩, by decide +kernel⟩

theorem witness_StoreResults :
    core0.lag = false ∧ core0.hart.stores = [] ∧ core0.unhindered 4 [2, 1] ∧ Memory.wf core0.mem = true ∧
      core0.hart.loading = false ∧ core0.hart.convoys = [] ∧ core0.storesAway = false ∧ core0.hart.failedStore = none ∧
      core0.reachesHere false false ⟨false, true, false⟩ 0x2004 4 (onPage 0x2004 4) 0x2004 core0 ∧
      (lagging core0).reachesHere false false ⟨false, true, false⟩ 0x2004 4 (onPage 0x2004 4) 0x2004 (lagging core0) ∧
      core0.reachesHere true false ⟨false, true, false⟩ 0x2000 8 (onPage 0x2000 8) 0x2000 core0 := by
  refine ⟨rfl, rfl, ?_, rfl, rfl, rfl, by decide +kernel, rfl, ⟨rfl, rfl⟩, ⟨rfl, rfl⟩, ⟨rfl, rfl⟩⟩
  unfold State.unhindered; decide +kernel

theorem witness_AtomicResults :
    core0.lag = false ∧ core0.hart.stores = [] ∧ core0.unhindered 4 [3, 2, 1] ∧ Memory.wf core0.mem = true ∧
      core0.hart.loading = false ∧ core0.hart.convoys = [] ∧ core0.storesAway = false ∧ core0.hart.failedStore = none ∧
      core0.reachesHere true true ⟨true, true, false⟩ 0x2000 4 (onPage 0x2000 4) 0x2000 core0 ∧
      core0.reachesHere true true ⟨true, true, false⟩ 0x2000 8 (onPage 0x2000 8) 0x2000 core0 ∧
      (core0.markPiece .scalar true (onPage 0x2000 8)).readFails 0x2000 8 = false := by
  refine ⟨rfl, rfl, ?_, rfl, rfl, rfl, by decide +kernel, rfl, ⟨rfl, rfl⟩, ⟨rfl, rfl⟩, by decide +kernel⟩
  unfold State.unhindered; decide +kernel

/-- The checks of a scalar access: addresses that they stop, a page that is not there, and one that cannot be read. -/
theorem witness_AddressChecks :
    canonical 0x8000000000000000 = false ∧ (canonical 0x2001 = true ∧ (0x2001 : Word).toNat % 2 ≠ 0) ∧
      (canonical 0x2000 = true ∧ (0x2000 : Word).toNat % 8 = 0) ∧
      (∃ lvl va, (({ core0 with cores := Vector.replicate 128 Core.reset }).reach .scalar ⟨true, false, false⟩ 0x2000 8).1 =
        .error (.invalid lvl va)) ∧
      ∃ e, (({ core0 with cores := Vector.replicate 128 { Core.reset with tlb := [{ page with leaf := 0x3C1 }] } }).reach .scalar
        ⟨true, true, false⟩ 0x2000 8).1 = .error (.denied e) :=
  ⟨by decide, by decide, by decide, ⟨_, _, rfl⟩, ⟨_, rfl⟩⟩

/-- The page maps the memory of package 1; `rs` are the requests under way. -/
def distant (rs : List RemoteRequest) : State :=
  { core0 with
    cores := Vector.replicate 128 { Core.reset with tlb := [{ page with leaf := 0x4000000083CF }] }
    remote := rs, nextRemote := 1 }

/-- What a scalar access of the page reaches there, and a request of the hart for 8 bytes. -/
def away : Piece := ⟨0x2000, 8, .away 0x40000002000, some { page with leaf := 0x4000000083CF }⟩
def asked (st : RemoteStatus) : RemoteRequest := ⟨0, .hart 0, 0, 0x40000002000, 0x2000, 0, .read 8, st⟩

/-- No request yet; and one that is sent, answered or has failed. -/
theorem witness_AccessesAway :
    ((distant []).scalarReach true ⟨true, false, false⟩ false 0x2000 8 8).1 = .ok away ∧
      ((distant []).scalarReach false ⟨false, true, false⟩ false 0x2000 8 8).1 = .ok away ∧
      ((distant []).scalarReach true ⟨true, true, false⟩ true 0x2000 8 8).1 = .ok away ∧
      ((distant []).hart.convoys = [] ∧ (distant []).hart.stores = [] ∧ (distant []).hart.loading = false ∧
        (distant []).storesAway = false ∧ (distant []).hart.failedStore = none ∧ (distant []).lag = false) ∧
      ((distant []).remote.find? fun r => r.asks (distant []) 0x40000002000 (.read 8)) = none ∧
      (distant []).storeAwaited 0x40000002000 = false ∧
      (∀ st ∈ [RemoteStatus.sent, .answered (List.replicate 8 1), .failed],
        ((distant [asked st]).remote.find? fun r => r.asks (distant [asked st]) 0x40000002000 (.read 8)) = some (asked st)) ∧
      (distant []).edge 0x1000 0x1004 = .start ∧ (distant []).unhindered 4 [3, 2, 1] := by
  unfold State.unhindered; decide +kernel

theorem witness_FencesComplete :
    (core0.performStores.unhindered 4 [] ∧ core0.hart.convoys = [] ∧ core0.hart.brimConvoys = [] ∧ core0.storesAway = false ∧
      core0.hart.failedStore = none ∧ core0.hart.loading = false ∧ core0.brimAway = false) ∧
    (crownBusy.hart.busyX [1, 2, 4] = false ∧ crownBusy.hart.convoys ≠ []) ∧
    (brimBusy.hart.busyX [1, 2, 4] = false ∧ brimBusy.hart.brimConvoys ≠ []) ∧
    (distant [⟨0, .hart 0, 0, 0x40000002000, 0x2000, 0, .write [some 1] false, .sent⟩]).storesAway = true ∧
    (distant [⟨0, .brim 0, 0, 0x40000002000, 0x2000, 0, .write [some 1] false, .sent⟩]).brimAway = true ∧
    (lagging core0).hart.busyX [1, 2, 4] = false ∧ (lagging core0).lag = true := by
  unfold State.unhindered; decide +kernel

/-! ## Witnesses: control flow and traps -/

theorem witness_BranchResults :
    core0.unhindered 4 [2, 1] ∧ core0.x 1 ≠ core0.x 2 ∧ core0.x 3 = core0.x 5 ∧ core0.convoyStart 0x1010 = true := by
  unfold State.unhindered; decide +kernel

theorem witness_JumpResults :
    core0.hart.busyX [3, 1] = false ∧ core0.convoyStart 0x1010 = true ∧ core0.unhindered 2 [8] ∧
      (8#5).toNat = 1 + (7#3).toNat ∧ core0.hart.busyX [0, 1] = false ∧ core0.hart.busyX [31, 1] = false ∧
      (core0.x 1).getLsbD 0 = false ∧ core0.convoyStart (core0.x 1) = true ∧ (core0.x 31).getLsbD 0 = false ∧
      core0.convoyStart (core0.x 31) = true := by
  unfold State.unhindered; decide +kernel

theorem witness_TransferTraps :
    core0.hart.convoys = [] ∧ core0.hart.busyX [3, 1, 2] = false ∧
      (BitVec.ofInt 64 ((core0.x 1).toNat + (1#13).toInt)).getLsbD 0 = true ∧
      (BitVec.ofInt 64 ((core0.x 4).toNat + (0x104#13).toInt)).getLsbD 0 = false ∧
      (withXs 0x1104 0).midConvoy ((withXs 0x1104 0).x 5) = true ∧
      core0.midConvoy (BitVec.ofInt 64 (core0.hart.pc.toNat + 2 * (0x82#18).toInt)) = true ∧
      core0.midConvoy (BitVec.ofInt 64 (core0.hart.pc.toNat + 2 * (0x82#11).toInt)) = true ∧
      core0.x 1 ≠ core0.x 2 ∧ core0.x 3 = core0.x 5 ∧ (core0.x 2).toInt < (core0.x 1).toInt ∧
      (core0.x 2).getLsbD ((core0.x 3).toNat % 64) = true ∧ (core0.x 1).getLsbD ((core0.x 3).toNat % 64) = false := by
  decide +kernel

theorem witness_TransferTraps_compressed :
    (1#5).toNat = 1 + (0#3).toNat ∧ (3#5).toNat = 1 + (2#3).toNat ∧ core0.hart.convoys = [] ∧
      core0.hart.busyX [0, 1, 5, 31] = false ∧
      core0.midConvoy (BitVec.ofInt 64 (core0.hart.pc.toNat + 2 * (0x82#13).toInt)) = true ∧
      core0.midConvoy (BitVec.ofInt 64 (core0.hart.pc.toNat + 2 * (0x82#9).toInt)) = true ∧ core0.x 3 = 0 ∧ core0.x 1 ≠ 0 ∧
      (let at_ := fun (v : Word) => withHart fun h => { h with x := (h.x.set 5 v).set 31 v }
       ((at_ 0x1101).x 5).getLsbD 0 = true ∧ ((at_ 0x1101).x 31).getLsbD 0 = true ∧
        ((at_ 0x1104).x 5).getLsbD 0 = false ∧ (at_ 0x1104).midConvoy ((at_ 0x1104).x 5) = true ∧
        (at_ 0x1104).midConvoy ((at_ 0x1104).x 31) = true) := by
  decide +kernel

/-- Nothing maps the pc: no page is held, and the tables are zero. -/
def unmapped : State := { core0 with cores := Vector.replicate 128 Core.reset }

theorem witness_TransferTraps_stall :
    unmapped.hart.convoys = [] ∧ unmapped.hart.busyX [3, 1, 2] = false ∧
      (let T := BitVec.ofInt 64 ((unmapped.x 1).toNat + (0x104#13).toInt)
       T.getLsbD 0 = false ∧ ∃ f, unmapped.startCheck T = .held (.stall f)) ∧
      ∃ f, unmapped.startCheck (BitVec.ofInt 64 (unmapped.hart.pc.toNat + 2 * (0x82#18).toInt)) = .held (.stall f) :=
  ⟨rfl, by decide +kernel, ⟨by decide +kernel, _, rfl⟩, _, rfl⟩

/-- Level 1 runs from 0x0F00 to 0x1F00. -/
def looping : State :=
  withHart fun h => { h with csr := { h.csr with lcnt := #v[0, 9], lstart := #v[0, 0xF00], lend := #v[0, 0x1F00] } }

theorem witness_LoopStarts :
    (0 : Fin 2).val = (0#1).toNat ∧ (1 : Fin 2).val = 1 - (0#1).toNat ∧
    (looping.hart.busyX [2] = false ∧ looping.hart.csr.lcnt[0] = 0 ∧ looping.hart.csr.lcnt[1] ≠ 0 ∧
      looping.hart.csr.lstart[1].toNat ≤ (looping.hart.pc + 4).toNat ∧ 0x1010 ≤ looping.hart.csr.lend[1].toNat ∧
      looping.convoyStart 0x1010 = true ∧
      (looping.onCsr fun c => { c with lstart := c.lstart.set 0 0x1004, lend := c.lend.set 0 0x1010, lcnt := c.lcnt.set 0 3 }).edge
        looping.hart.pc 0x1004 = .start) ∧
    (looping.hart.convoys = [] ∧ looping.hart.csr.lcnt[1] ≠ 0) ∧
    ¬(looping.hart.csr.lstart[1].toNat ≤ (looping.hart.pc + 4).toNat ∧ 0x1F02 ≤ looping.hart.csr.lend[1].toNat) ∧
    looping.midConvoy 0x1104 = true ∧ 0x1104 ≤ looping.hart.csr.lend[1].toNat := by
  decide +kernel

/-- The body of level 0 in that of level 1, both ending at 0x1004; and that of level 0 alone. -/
def nested (n m : Word) : Csrs :=
  { Csrs.reset with lcnt := #v[n, m], lstart := #v[0xF80, 0xF00], lend := #v[0x1004, 0x1004] }

theorem witness_LoopBackEdges :
    let leaves := fun (c : Csrs) (a next : Word) (j : Fin 2) =>
      c.lcnt[j] ≠ 0 ∧ c.lstart[j].toNat ≤ a.toNat ∧ a.toNat < c.lend[j].toNat ∧ next = c.lend[j]
    (¬leaves (nested 0 0) 0x1000 0x1004 0 ∧ ¬leaves (nested 0 0) 0x1000 0x1004 1) ∧
    (leaves (nested 3 0) 0x1000 0x1004 0 ∧ ¬leaves (nested 3 0) 0x1000 0x1004 1) ∧
    (leaves (nested 1 2) 0x1000 0x1004 0 ∧ leaves (nested 1 2) 0x1000 0x1004 1 ∧
      (nested 1 2).lstart[1].toNat < (nested 1 2).lstart[0].toNat) := by decide +kernel

/-- User mode; and the delegation of ILLEGAL. -/
def user : State := withHart fun h => { h with mode := .user, csr := { h.csr with tdeleg := 0xC60 } }

theorem witness_TrapEntrySavesAndVectors :
    (user.hart.mode = .user ∧ user.hart.csr.tdeleg.getLsbD (Cause.code .bound) = true ∧ user.hart.csr.status.getLsbD 1 = false) ∧
      ¬(core0.hart.mode = .user) := by decide +kernel

theorem witness_CallsAndBreakpoints :
    core0.hart.convoys = [] ∧ core0.edge core0.hart.pc (core0.nextPc 4) = .start ∧ core0.hart.mode = .supervisor ∧
      user.hart.mode = .user ∧ user.edge user.hart.pc (user.nextPc 4) = .start ∧
      core0.edge core0.hart.pc (core0.nextPc 2) = .start ∧ core0.unhindered 4 [] := by
  unfold State.unhindered; decide +kernel

theorem witness_ReturnsFromTraps :
    (core0.hart.mode = .supervisor ∧ core0.hart.csr.status.getLsbD 0 = true ∧ core0.convoyStart core0.hart.csr.tepc = true) ∧
      user.hart.mode = .user ∧ user.convoyStart user.hart.csr.uepc = true := by decide +kernel

/-- The saved addresses of both traps lie inside a convoy. -/
def insideConvoy (m : Mode) : State :=
  withHart fun h => { h with mode := m, csr := { h.csr with tepc := 0x1104, uepc := 0x1104, status := 1 } }

theorem witness_PrivilegeTraps :
    (user.hart.convoys = [] ∧ user.hart.mode = .user ∧ 0x080 ≤ (0x100#11).toNat) ∧
      (insideConvoy .user).hart.mode = .user ∧ ((insideConvoy .supervisor).hart.mode = .supervisor) ∧
      (let s := insideConvoy .supervisor
       ({ s with hart := { s.hart with mode := s.hart.csr.pm } }).midConvoy s.hart.csr.tepc = true) := by
  decide +kernel

/-- The same in user mode, with a page open to it. -/
def insideConvoyUser : State :=
  { insideConvoy .user with cores := Vector.replicate 128 { Core.reset with tlb := [{ page with leaf := 0x3DF }] } }

theorem witness_PrivilegeTraps_uret :
    insideConvoyUser.hart.mode = .user ∧ insideConvoyUser.midConvoy insideConvoyUser.hart.csr.uepc = true := by decide +kernel

theorem witness_VcfgReshapes :
    Count.ofCode 1 = some .c16 ∧ Count.ofCode 2 = some core0.hart.count ∧ Elem.ofCode 3 0 = some .fp32 ∧ core0.lag = false ∧
      core0.unhindered 4 [3] ∧ core0.hart.still = true ∧ core0.hart.queue = [] := by
  unfold State.unhindered; decide +kernel

theorem witness_BsyncCollects :
    core0.lag = false ∧ core0.hart.brimConvoys = [] ∧ core0.hart.csr.bsum &&& 0xE0FFFF = 0 ∧ core0.unhindered 4 [] ∧
      (let s := withHart fun h => { h with csr := { h.csr with bsum := 0x200001 } }
       s.hart.csr.bsum &&& 0xE0FFFF ≠ 0 ∧ s.hart.convoys = []) := by
  unfold State.unhindered; decide +kernel

theorem witness_FetchAndDecodeTraps :
    core0.hart.convoys = [] ∧ (∃ d t, core0.fetchInstr 0x1000 = (.ok d, t) ∧ undecodable core0.hart.mode core0.hart.count d = some .illegal) ∧
    (∃ va t, (withHart fun h => { h with pc := 0xFFFFFFF000000000 }).fetchInstr 0xFFFFFFF000000000 = (.error (.access va), t)) ∧
    ∃ f t, unmapped.fetchInstr 0x1000 = (.error (.stall f), t) := by
  refine ⟨rfl, ⟨[0, 0], (core0.fetchInstr 0x1000).2, pair_of_fst (by decide +kernel),
    by decide +kernel⟩, ⟨0xFFFFFFF000000000, _, rfl⟩, ⟨unmapped.fetchFault 0x1000 0x1000 4, (unmapped.fetchInstr 0x1000).2,
    pair_of_fst (by decide +kernel)⟩⟩

theorem witness_CsrReads :
    core0.lag = false ∧ csrAllowed core0.hart.mode 0x100 = true ∧ core0.unhindered 4 [3] ∧ core0.hart.csrReadable 0x100 = true ∧
      (0x100#11).toNat < 0x180 ∧ csrAllowed core0.hart.mode 0x203 = true ∧ core0.hart.csrReadable 0x203 = true := by
  unfold State.unhindered; decide +kernel

/-- Each CSR whose read clears or advances something is named and readable. -/
theorem witness_CsrReads_clears :
    ∀ n ∈ [0x203#11, 0x204, 0x313, 0x321, 0x322, 0x333, 0x341],
      csrAllowed core0.hart.mode n = true ∧ core0.hart.csrReadable n.toNat = true := by decide +kernel

theorem witness_CsrWrites :
    ((0x00A#11).toNat, ~~~0) ∈ plainCsrs ∧ core0.lag = false ∧ csrAllowed core0.hart.mode 0x00A = true ∧
      core0.unhindered 4 [3, 1] ∧ core0.hart.still = true ∧ (1 : BitVec 5) ≠ 0 ∧ core0.unhindered 4 [0, 1] := by
  unfold State.unhindered; decide +kernel

theorem witness_SystemCsrWrites :
    core0.hart.mode = .supervisor ∧ core0.unhindered 4 [0, 1] ∧ core0.hart.still = true ∧ core0.heldRecords = 0 ∧
      core0.noSlices = true ∧ (core0.dramAt (core0.x 1 &&& 0xFFFFFFFFFF000).toNat).isSome = true ∧
      (∀ r ∈ core0.remote, r.status ≠ .sent) ∧ (∀ k ∈ core0.harts, k.loading = false) ∧ (withXs 0x8000000000000000 0).unhindered 4 [0, 5] ∧
      ((withXs 0x8000000000000000 0).x 5).getLsbD 63 = true := by
  unfold State.unhindered; decide +kernel

/-! ## Witnesses: floating point and masks -/

theorem witness_FloatResults :
    core0.unhindered 4 [3, 1, 2] ∧ [Elem.fp16, .bf16, .fp32, .fp64][(0#2).toNat]? = some .fp16 ∧
      [Elem.fp16, .bf16, .fp32, .fp64][(3#2).toNat]? = some .fp64 ∧ core0.unhindered 4 [3, 1, 2, 4] := by
  unfold State.unhindered; decide +kernel

/-- 1, −2 and 0 in FP32, and 1 in FP64. -/
theorem witness_FloatResults_values :
    finite .fp32 0x3F800000 = some 1 ∧ finite .fp32 0xC0000000 = some (-2) ∧ finite .fp32 0 = some 0 ∧
      finite .fp64 0x3FF0000000000000 = some 1 ∧ 0x3F800000 < 2 ^ Elem.fp32.width := by decide +kernel

/-- In FP32: the infinities, a NaN, and zeros of both signs; 1 lies above −∞ and equals itself. -/
theorem witness_FloatResults_specials :
    infinite .fp32 0x7F800000 ∧ infinite .fp32 0xFF800000 ∧ notNumber .fp32 0x7FC00000 ∧ ¬notNumber .fp32 0x3F800000 ∧
      ¬infinite .fp32 0x3F800000 ∧ finite .fp32 0 = some 0 ∧ finite .fp32 0x80000000 = some 0 ∧
      negative .fp32 0x80000000 = true ∧ negative .fp32 0x7F800000 = false ∧ 0xFF800000 < 2 ^ Elem.fp32.width ∧
      (∃ u v, HasValue .fp32 0xFF800000 u ∧ HasValue .fp32 0x3F800000 v ∧ u < v) ∧
      ∃ u, HasValue .fp32 0x3F800000 u ∧ HasValue .fp32 0x3F800000 u := by
  refine ⟨by unfold infinite; decide +kernel, by unfold infinite; decide +kernel, by unfold notNumber infinite; decide +kernel,
    by unfold notNumber infinite; decide +kernel, by unfold infinite; decide +kernel, by decide +kernel, by decide +kernel,
    by decide +kernel, by decide +kernel, by decide +kernel,
    ⟨⊥, ((1 : ℚ) : ℝ), .inr ⟨by unfold infinite; decide +kernel, by
      rw [show negative .fp32 0xFF800000 = true by decide +kernel]; rfl⟩, .inl ⟨1, by decide +kernel, rfl⟩, EReal.bot_lt_coe _⟩,
    ⟨((1 : ℚ) : ℝ), .inl ⟨1, by decide +kernel, rfl⟩, .inl ⟨1, by decide +kernel, rfl⟩⟩⟩

theorem witness_MaskLogicResults :
    (23#5).toNat < 24 ∧ core0.maskFree 23 [] [1, 2, 7] ∧ core0.hart.still = true ∧ core0.maskFree 0 [2, 4] [] := by
  unfold State.maskFree; decide +kernel

/-- Engine work 7 owns m3. -/
def ownedMask : State := withHart fun h => { h with owner := h.owner.set 3 (some 7) }

theorem witness_MaskElementResults :
    (5#5).toNat < 24 ∧ core0.maskFree 5 [2] [] ∧ core0.unhindered 4 [5] ∧ core0.hart.busyMask [6, 1] = false ∧
      core0.maskFree 5 [] [6, 1] ∧ (core0.x 2).toNat < core0.hart.vmax ∧
      ownedMask.hart.convoys = [] ∧ ownedMask.hart.brimConvoys = [] ∧ ownedMask.hart.owner.getD (3#5).toNat none = some 7 := by
  unfold State.maskFree State.unhindered; decide +kernel

/-! ## Witnesses: arrival words, waits, barriers, farms -/

theorem witness_ArrivalWordUpdates :
    core0.unhindered 4 [1, 2] ∧ core0.hart.stores = [] ∧ core0.hart.convoys = [] ∧ core0.storesAway = false ∧
      core0.hart.failedStore = none ∧ Memory.wf core0.mem = true ∧
      core0.reachesHere false true ⟨false, true, false⟩ 0x2000 16 (onPage 0x2000 16) 0x2000 core0 ∧ 0x2000 < scalarBase 0 ∧
      (core0.markPiece .scalar true (onPage 0x2000 16)).readFails 0x2000 16 = false := by
  refine ⟨by unfold State.unhindered; decide +kernel, rfl, rfl, by decide +kernel, rfl, rfl,
    ⟨Prod.ext (by decide +kernel) rfl, rfl⟩, by decide, by decide +kernel⟩

/-- A farm of 8 strips that wants 2 harts on stack 0; the bits of `more` choose its kind. -/
def farm0 (more : Word) : Farm :=
  (⟨none, 0, none, 0, 0, 0, .supervisor⟩ : Launch).farm ⟨0x1000, 0x2000, 0, 0, 0, 0, 0, 0, more ||| 0x100800008⟩
    (List.replicate 128 0) 0 Controller.reset

/-- The hart is of that farm, which `f` changes; the farm owns the slots of every cluster. -/
def farmed (more : Word) (f : Farm → Farm) : State :=
  { core0 with
    ctl := { Controller.reset with farms := [f (farm0 more)], accepted := 1 }
    clusters := Vector.replicate 32 { Cluster.reset with owner := some 0 } }

/-- Its kinds: cluster-placed, AFFINE, RESIDENT. -/
def clusterBit : Word := 0x4000000000000000
def affineBit : Word := 0x1000000000000000
def residentBit : Word := 0x2000000000000000

theorem witness_WaitsCompleteOrSleep :
    (∃ l v, core0.wordReach ⟨true, false, false⟩ (core0.x 1) 16 16 = (.ok l, v) ∧
      (v.arrival l).generation ≠ (core0.x 2).extractLsb' 0 32 ∧ v.unhindered 4 [] ∧
      (v.arrival l).generation = (core0.x 3).extractLsb' 0 32) ∧
    (∃ l v, core0.wordReach ⟨true, false, false⟩ (core0.x 1) 8 8 = (.ok l, v) ∧
      BitVec.ofNat 64 (valueOf (v.readLoc l 8)) ≠ core0.x 2 ∧ v.unhindered 4 [] ∧
      BitVec.ofNat 64 (valueOf (v.readLoc l 8)) = core0.x 3) ∧
    (let s := farmed clusterBit id
     core0.hart.busyX [1, 2] = false ∧ core0.hart.busyX [1, 3] = false ∧ s.hart.busyX [2, 3] = false ∧
      (s.x 2).toNat ≤ 7 ∧ s.ownsSlots = true ∧ (s.slot ((s.x 2).setWidth 3)).bad = false ∧
      (s.slot ((s.x 2).setWidth 3)).failed = false ∧ (s.slot ((s.x 2).setWidth 3)).generation ≠ (s.x 2).extractLsb' 0 32 ∧
      s.unhindered 4 [] ∧ (s.slot ((s.x 2).setWidth 3)).generation = (s.x 3).extractLsb' 0 32) := by
  refine ⟨⟨0x2000, (core0.wordReach ⟨true, false, false⟩ (core0.x 1) 16 16).2, pair_of_fst (by decide +kernel), ?_⟩,
    ⟨0x2000, (core0.wordReach ⟨true, false, false⟩ (core0.x 1) 8 8).2, pair_of_fst (by decide +kernel), ?_⟩, ?_⟩ <;>
    (unfold State.unhindered; decide +kernel)

/-- Registers 5 and 6 of a hart whose farm owns the slots. -/
def slotHart (a b : Word) : State :=
  let s := farmed clusterBit id
  { s with hart := { s.hart with x := (s.hart.x.set 5 a).set 6 b } }

theorem witness_SlotArrivals :
    (let s := slotHart 7 16
     s.lag = false ∧ s.unhindered 4 [5, 6] ∧ s.hart.convoys = [] ∧ s.hart.stores = [] ∧ s.storesAway = false ∧
      s.hart.wait = none ∧ (waitingFor (.carrive 5 6) s).awake = true ∧ (s.x 5).toNat ≤ 7 ∧ s.x 6 ≠ 0 ∧
      (s.x 6).toNat ≤ 16 ∧ s.ownsSlots = true ∧ (s.slot ((s.x 5).setWidth 3)).bad = false ∧
      (s.slot ((s.x 5).setWidth 3)).failed = false) ∧
    7 < ((slotHart 8 1).x 5).toNat ∧ (slotHart 8 1).unhindered 4 [5, 6] ∧
    ((slotHart 0 0).x 6 = 0 ∧ (slotHart 0 0).unhindered 4 [5, 6]) ∧
    (16 < ((slotHart 0 17).x 6).toNat ∧ (slotHart 0 17).unhindered 4 [5, 6]) ∧
    ((withXs 7 1).ownsSlots = false ∧ (withXs 7 1).unhindered 4 [5, 6]) := by
  unfold State.unhindered; decide +kernel

theorem witness_FarmBarrier :
    (let s := farmed 0 id
     s.farmOf s.hart = some (farm0 0) ∧ s.hart.convoys = [] ∧ s.hart.stores = [] ∧ s.storesAway = false ∧ s.unhindered 4 [] ∧
      (farm0 0).record.together = false) ∧
    (let f := { farm0 residentBit with barrier := 1, started := 2, arrived := 1 }
     let s := { farmed residentBit (fun _ => f) with lag := true }
     s.farmOf s.hart = some f ∧ s.hart.convoys = [] ∧ s.hart.stores = [] ∧ s.unhindered 4 [] ∧ f.record.together = true ∧
      s.hart.round ≠ f.barrier ∧ s.hart.round ≤ f.barrier ∧ s.lag = true) ∧
    (let f := { farm0 residentBit with started := 2, arrived := 1 }
     let s := { farmed residentBit (fun _ => f) with lag := true }
     s.farmOf s.hart = some f ∧ f.record.together = true ∧ s.hart.round = f.barrier ∧ s.lag = true ∧
      s.farmAt f.entry = some f ∧ s.ctl.farms.filter (fun g => decide (g.entry = f.entry)) = [f]) ∧
    (let f := { farm0 residentBit with barrier := 1, started := 2, arrived := 1 }
     let s := farmed residentBit fun _ => f
     s.lag = false ∧ s.farmAt f.entry = some f ∧ f.arrived < f.started - f.retired) ∧
    (∀ n ∈ [2, 3],
      let f := { farm0 residentBit with started := n, arrived := 1 }
      let s := farmed residentBit fun _ => f
      s.farmOf s.hart = some f ∧ s.hart.round = f.barrier ∧ s.farmAt f.entry = some f ∧ s.lag = false ∧
        s.ctl.farms.filter (fun g => decide (g.entry = f.entry)) = [f] ∧ (f.started - f.retired ≤ f.arrived + 1 ↔ n = 2) ∧
        s.hart.live = true ∧ s.parked = [] ∧ s.hart.sleep = none) ∧
    (let f := { farm0 residentBit with started := 2, retired := 1, arrived := 1 }
     let s := farmed residentBit fun _ => f
     s.farmAt f.entry = some f ∧ f.arrived ≠ 0 ∧ f.started - f.retired ≤ f.arrived) := by
  unfold State.unhindered; decide +kernel

theorem witness_StripsAndRetirement :
    (let s := farmed 0 id
     s.lag = false ∧ s.farmOf s.hart = some (farm0 0) ∧ s.farmAt (farm0 0).entry = some (farm0 0) ∧ s.unhindered 4 [3] ∧
      (farm0 0).record.kind ≠ 1 ∧ (farm0 0).nexts = [0] ∧ 0 < (farm0 0).record.strips) ∧
    (let f := { farm0 0 with nexts := [8] }
     (farmed 0 fun _ => f).farmOf hart0 = some f ∧ f.nexts = [8] ∧ ¬(8 < f.record.strips)) ∧
    (let f := farm0 affineBit
     let s := farmed affineBit id
     s.farmOf s.hart = some f ∧ f.record.kind = 1 ∧ f.record.stacks.idxOf (s.hart.id.toNat / 32) < f.record.stacks.length ∧
      f.record.stacks.idxOf (s.hart.id.toNat / 32) < f.nexts.length ∧ f.nexts.getD 0 0 < f.runEnd 0) ∧
    (∀ nexts ∈ [[4, 5], [4, 8]],
      let f := { farm0 (affineBit ||| 0x200000000) with nexts := nexts }
      let s := farmed (affineBit ||| 0x200000000) fun _ => f
      s.farmOf s.hart = some f ∧ s.farmAt f.entry = some f ∧ f.record.kind = 1 ∧ f.nexts.length = f.record.stacks.length ∧
        (∀ i < f.nexts.length, f.record.firstStrips.getD i 0 ≤ f.nexts.getD i 0) ∧ f.runEnd 0 ≤ f.nexts.getD 0 0 ∧
        f.runEnd 1 = 8 ∧ f.record.stacks.idxOf (s.hart.id.toNat / 32) = 0) ∧
    (let f := { farm0 0 with started := 1 }
     let s := farmed 0 fun _ => f
     s.hart.still = true ∧ s.hart.queue = [] ∧ s.hart.csr.bsum &&& 0xE0FFFF = 0 ∧ s.hart.stores = [] ∧ s.farmOf s.hart = some f ∧
      f.arrived = 0 ∧ s.ctl.farms.filter (fun g => decide (g.entry = f.entry)) = [f]) ∧
    (withHart fun h => { h with csr := { h.csr with bsum := 0x800000 } }).hart.csr.bsum &&& 0xE0FFFF ≠ 0 := by
  unfold State.unhindered; decide +kernel

/-- A record at 0x2000 of the page, in core 0; `full` farms hold every entry of the table. -/
def launching (control : Word) (full : Bool) : State :=
  { core0 with
    mem := writeCells core0.mem 0x2000 (toBytes 0x1000 8 ++ toBytes 0x4000 8 ++ List.replicate 40 0 ++ toBytes control.toNat 8)
    ctl := { Controller.reset with
      farms := if full then (List.range 64).map fun k => { farm0 0 with entry := BitVec.ofNat 6 k } else [] } }

/-- What the launching hart's checks leave, and the read of the record after it. -/
def launchReach (s : State) := s.scalarReach false ⟨true, false, false⟩ false (s.x 1) 64 64
def launchBlock (s : State) := s.reachAll .scalar ⟨true, false, false⟩ (FarmRecord.ofBytes (s.readLoc 0x2000 64)).args 128

/-- Nothing hinders the launch, and the record and the block are read, as the statement names the parts. -/
def LaunchRead (s : State) : Prop :=
  (s.hart.live = true ∧ s.unhindered 4 [3, 1] ∧ s.straight 4 ∧ s.hart.still = true ∧ s.hart.stores = [] ∧
    s.storesAway = false ∧ s.brimAway = false ∧ s.hart.failedStore = none ∧ s.ctl.launches = [] ∧ s.hart.wait = none ∧
    (waitingFor (.launch 3 1) s).awake = true) ∧
    (launchReach s).1 = .ok (onPage 0x2000 64) ∧
    let r := (launchReach s).2.readPiece .scalar ⟨0, 0, 0⟩ (onPage 0x2000 64)
    let s2 := r.2.countPiece (onPage 0x2000 64)
    r.1 = .ok (s.readLoc 0x2000 64, false) ∧ (launchBlock s2).1 = .ok [onPage 0x4000 128] ∧
    (let b := State.readBlock [onPage 0x4000 128] (launchBlock s2).2
     b.1 = .ok (List.replicate 128 0, false) ∧ b.2.plat = s2.plat ∧ b.2.ctl = s2.ctl)

theorem witness_LaunchOutcomes :
    LaunchRead (launching 0x100800008 false) ∧ LaunchRead (lagging (launching 0x100800008 false)) ∧ (launching 0x100800008 false).ctl.freeEntry = some 0 ∧
      (FarmRecord.ofBytes ((launching 0x100800008 false).readLoc 0x2000 64)).malformed = false ∧
      (FarmRecord.ofBytes ((launching 0x100800008 false).readLoc 0x2000 64)).unsatisfiable = false := by
  unfold LaunchRead State.unhindered State.straight; decide +kernel

theorem witness_LaunchOutcomes_full :
    LaunchRead (launching 0x100800008 true) ∧ (launching 0x100800008 true).ctl.freeEntry = none := by
  unfold LaunchRead State.unhindered State.straight; decide +kernel

theorem witness_LaunchOutcomes_refused :
    LaunchRead (launching 0x2000000108800008 false) ∧ LaunchRead (launching 0 false) ∧
      (FarmRecord.ofBytes ((launching 0x2000000108800008 false).readLoc 0x2000 64)).unsatisfiable = true ∧
      (FarmRecord.ofBytes ((launching 0x2000000108800008 false).readLoc 0x2000 64)).malformed = false ∧
      (FarmRecord.ofBytes ((launching 0 false).readLoc 0x2000 64)).malformed = true := by
  unfold LaunchRead State.unhindered State.straight; decide +kernel

/-! ## Witnesses: engine instructions -/

/-- A hart with the copy, activation-cache and collective CSRs that its checks accept, at a name and a group of two ranks. -/
def engines (cpopt : Word) : State :=
  { core0 with
    hart := { hart0 with
      x := ((hart0.x.set 5 0x40).set 6 7).set 7 256
      csr := { hart0.csr with cpopt := cpopt, cprows := 2, cpstride := 0x1000000010, stsize := 0x00100100, collopt := 1 } }
    mem := writeCells core0.mem 0x8000 [2, 0, 0, 0, 0, 0, 0, 0, 0, 0x90]
    names := [⟨7, 0x10000, 256, 1, 0, 0, .supervisor, 0⟩]
    pkg := { PackageCsrs.reset with cgbase := 0x8000, stalimit := 16 } }

/-- Without queued matrix entries and brim convoys, the operands of an engine instruction are free. -/
theorem operands_free (s : State) (r m : Option (BitVec 5)) (q : s.hart.queue = []) (b : s.hart.brimConvoys = []) :
    s.operandsFree r m := ⟨by simp [q], by simp [b]⟩

theorem witness_CopiesAreQueued_operands :
    (∀ c, (engines c).operandsFree none none ∧ (engines c).operandsFree (some 2) none ∧ (engines c).operandsFree none (some 7)) ∧
      (engines 0).operandsFree (some 3) none ∧ (engines 0).operandsFree none (some 1) ∧
      (withXs 1 9).queueRoom (homeOf (withXs 1 9).hart.id) .acts = true :=
  ⟨fun c => ⟨operands_free _ _ _ rfl rfl, operands_free _ _ _ rfl rfl, operands_free _ _ _ rfl rfl⟩,
    operands_free _ _ _ rfl rfl, operands_free _ _ _ rfl rfl, by decide +kernel⟩

theorem witness_CopiesAreQueued :
    (let s := engines 0x00100
     s.engineFree [1, 4, 2] s.hart.csr.cpaw s ∧ s.hart.badCrown = [] ∧
      firstFailure (s.copyChecks false none (s.x 1) (s.x 4) ((s.x 2).toNat * 1)) = none ∧
      s.queueRoom (s.stackOfAddress (s.x 1)) .copies = true ∧
      firstFailure (s.copyChecks false none (s.x 1) (s.x 4) ((s.x 2).toNat * 2)) = none ∧
      (2#5).toNat < s.hart.count.regs ∧ firstFailure (s.copyChecks false (some 2) (s.x 1) (s.x 4) (256 * 2)) = none ∧
      firstFailure (s.copyChecks true (some 2) (s.x 1) (s.x 4) (256 * 2)) = none ∧
      s.queueRoom (homeOf s.hart.id) .copies = true) ∧
    (let s := engines 0xF0100
     s.engineFree [1, 4, 2] s.hart.csr.cpaw s ∧ s.hart.owner.getD (7#5).toNat none = none ∧
      firstFailure (s.copyChecks false none (s.x 1) (s.x 4) (s.x 2).toNat) = none ∧ s.hart.csr.cpopt.getLsbD 19 = true) := by
  unfold State.engineFree State.engineClear State.unhindered
  refine ⟨⟨⟨rfl, rfl, rfl, rfl, rfl, by decide +kernel⟩, by decide +kernel⟩, ⟨rfl, rfl, rfl, rfl, rfl, by decide +kernel⟩,
    by decide +kernel⟩

theorem witness_WalksProbesAndFillsAreQueued :
    (let s := engines 0
     (s.engineFree [1, 2, 5] (s.x 5) (s.awCheck (s.x 5)).2 ∧
      firstFailure (s.walkChecks (s.x 1) (s.x 2) (s.x 5)) = none ∧ s.queueRoom (homeOf s.hart.id) .walks = true) ∧
      (s.engineFree [1, 4] s.hart.csr.staw s ∧ (3#5).toNat < s.hart.count.regs ∧ s.queueRoom (homeOf s.hart.id) .acts = true ∧
        firstFailure (s.actChecks 3 (s.x 1) (s.x 4)) = none ∧ (1#4) ≠ 0 ∧ s.hart.owner.getD (1#5).toNat none = none ∧
        s.tilesOf 3 (s.x 1) (s.x 4) (BitVec.allOnes 8192) ≠ [] ∧ s.pkg.stalimit.toNat * 65536 ≠ 0 ∧
        2 * (s.hart.csr.stsize.toNat % 2 ^ 17) ≤ s.pkg.stalimit.toNat * 65536)) ∧
    (let t := { engines 0 with hart := { (engines 0).hart with v := Vector.replicate 256 (BitVec.allOnes 2048) } }
     t.engineFree [1, 4] t.hart.csr.staw t ∧ firstFailure (t.actChecks 3 (t.x 1) (t.x 4)) = none ∧
      t.tilesOf 3 (t.x 1) (t.x 4) (BitVec.allOnes 8192) = [] ∧ t.hart.csr.staw = 0) ∧
    (let s := withXs 1 9
     s.hart.busyX [5, 6] = false ∧ s.hart.convoys = [] ∧ s.hart.stores = [] ∧ s.storesAway = false ∧ (s.x 5).toNat ≤ 2 ∧
      ¬(s.x 5 = 2 ∧ s.hart.mode = .user) ∧ s.actsDecided = true ∧ s.unhindered 4 []) ∧
    2 < ((withXs 3 0).x 5).toNat ∧ user.hart.mode = .user := by
  unfold State.engineFree State.engineClear State.unhindered
  refine ⟨⟨⟨⟨rfl, rfl, rfl, rfl, pair_of_fst (by decide +kernel), by decide +kernel⟩, by decide +kernel⟩,
    ⟨rfl, rfl, rfl, rfl, rfl, by decide +kernel⟩, by decide +kernel⟩,
    ⟨⟨rfl, rfl, rfl, rfl, rfl, by decide +kernel⟩, by decide +kernel⟩, by decide +kernel⟩

theorem witness_NamesAndCollectives :
    (let s := engines 0
     s.engineFree [2, 1, 7] 0 s ∧ firstFailure (s.cnameChecks (s.x 2) (s.x 1) (s.x 7)) = none) ∧
    (let s := engines 0
     s.engineFree [6, 2, 3] (s.x 3) s ∧ firstFailure (s.collChecks (s.x 6) 2 (s.x 3)) = none ∧ s.collsInFlight < 256 ∧
      s.nameOf (s.x 6).toNat = some ⟨7, 0x10000, 256, 1, 0, 0, .supervisor, 0⟩ ∧ s.group 0 ≠ none) := by
  unfold State.engineFree State.engineClear State.unhindered
  refine ⟨⟨⟨rfl, rfl, rfl, rfl, rfl, by decide +kernel⟩, by decide +kernel⟩, ⟨rfl, rfl, rfl, rfl, rfl, by decide +kernel⟩,
    by decide +kernel⟩

/-- Tables that map the page of 4 KiB at 0x2000 to the frame at 0x20000. -/
def mapped (target : Word) (lag : Bool) : State :=
  let put (m : List Host.Cell) (at_ : Nat) (e : Nat) := writeCells m at_ (toBytes e 8)
  { core0 with
    lag := lag
    hart := { hart0 with x := hart0.x.set 6 target, csr := { hart0.csr with ptbase := 0x4000 } }
    mem := put (put (put (put (put core0.mem 0x4000 (5 * 65536 + 1)) 0x5000 (6 * 65536 + 1)) 0x6000 (7 * 65536 + 1)) 0x7000
      (8 * 65536 + 1)) 0x8010 (0x20 * 65536 + 0xC7) }

/-- The hypotheses of the statement, with the leaf that the walk finds. -/
def CanMigrate (s : State) (dst : Nat) : Prop :=
  (s.hart.mode = .supervisor ∧ s.hart.busyX [1, 6] = false ∧ s.hart.convoys = [] ∧ s.hart.stores = [] ∧ s.parked = [] ∧
    s.straight 4 ∧ Memory.wf s.mem = true ∧ s.migrations = [] ∧ canonical (s.x 1) = true ∧ inLocal (s.x 1) = false) ∧
    (s.pmigWalk (s.x 1)).1 = some (0x2000C7, 0x8010, 0x1000) ∧
    (s.pmigWalk (s.x 1)).2.migratable 0x2000C7 0x1000 = true ∧ (s.pmigWalk (s.x 1)).2.targetOk (s.x 6) 0x1000 = true ∧
    (s.pmigWalk (s.x 1)).2.dramAt (frameOf 0x2000C7) = some 0x20000 ∧
    (s.pmigWalk (s.x 1)).2.dramAt (s.x 6).toNat = some dst ∧ (dst + 0x1000 ≤ 0x8010 ∨ 0x8018 ≤ dst) ∧ s.hart.wait = none ∧
    s.hart.laterals = [] ∧ s.works.all fun w => decide (w.ending = none)

theorem witness_PagesMigrate :
    CanMigrate (mapped 0x30000 false) 0x30000 ∧ CanMigrate (mapped 0x30000 true) 0x30000 ∧ (mapped 0x30000 true).lag = true ∧
      (mapped 0x30000 false).lag = false ∧ CanMigrate (mapped 0x20000 false) 0x20000 := by
  refine ⟨?_, ?_, rfl, rfl, ?_⟩ <;>
    (unfold CanMigrate State.straight; refine ⟨by decide +kernel, by decide +kernel⟩)

/-! ## Witnesses: the matrix engine, accumulation windows -/

/-- The tile registers hold something, and x7 is 60. -/
def tiles (f : Hart → Hart) : State :=
  withHart fun h => f { h with x := h.x.set 7 60, tile := Vector.replicate 128 5, v := Vector.replicate 256 9 }

theorem witness_TileResults :
    (tiles id).lag = false ∧ (tiles id).unhindered 8 [7] ∧ (tiles id).hart.still = true ∧ (tiles id).hart.queue = [] ∧
      (tiles id).hart.badCrown = [] ∧ (tiles id).hart.badTile = [] ∧
      ([1, 8] : List (BitVec 5)).all (fun r => decide (r.toNat < (tiles id).hart.count.regs)) = true ∧
      ((tiles id).hart.entry .mma 0 1 8 0 2 2 0 0 0 0).checked = true ∧
      ((tiles id).hart.entry .mmax 0 1 8 3 4 4 0 0 0 0).checked = true ∧
      ((tiles id).hart.entry .mma 0 1 2 0 2 2 0 0 0 0).checked = false ∧
      ([9, 2] : List (BitVec 5)).all (fun r => decide (r.toNat < (tiles fun h => { h with count := .c8 }).hart.count.regs)) = false := by
  unfold State.unhindered; decide +kernel

/-- An entry joins the queue where waits are left open; and the entries of each kind, floating and integer. -/
theorem witness_TileResults_queued :
    (let s := lagging (tiles id)
     s.lag = true ∧ s.edge s.hart.pc (s.nextPc 8) = .start ∧ s.hart.queue.length < 32 ∧ s.hart.busyX [7] = false ∧
      s.hart.wait = none ∧ (waitingFor (.mma 0 1 8 2 2 0 0 0) s).awake = true) ∧
    (∀ e ∈ [core0.hart.entry .mma 0 1 8 0 2 2 0 0 0 0, core0.hart.entry .mmas 0 1 8 3 2 2 0 0 0 0,
        core0.hart.entry .mmax 0 1 8 3 4 4 0 0 0 0, core0.hart.entry .mmag 0 1 8 0 2 2 0 0 0 0],
      e.int = false ∧ ∃ F ∈ [Elem.fp16, .e4m3], fmtOf e.fa = .flt F ∧ fmtOf e.fb = .flt F) ∧
    ∀ e ∈ ([.mma, .mmag] : List MatrixOp).map fun op =>
        (withHart fun h => { h with csr := { h.csr with mshp := 0x10000 } }).hart.entry op 0 1 8 0 8 8 0 0 0 0,
      e.int = true ∧ fmtOf e.fa = .int 8 true ∧ fmtOf e.fb = .int 8 true := by
  decide +kernel

theorem witness_TileMoves :
    ((tiles id).lag = false ∧ (tiles id).unhindered 8 [7] ∧ (tiles id).hart.still = true ∧ (tiles id).hart.queue = [] ∧
      (4#5).toNat < (tiles id).hart.count.regs ∧ 64 < ((tiles id).x 7).toNat + (tiles id).hart.count.groups ∧
      ((tiles id).x 2).toNat + (tiles id).hart.count.groups ≤ 64 ∧ (tiles id).unhindered 8 [2] ∧
      (tiles id).hart.tilePoison[0] = none ∧
      (tiles fun h => { h with tilePoison := h.tilePoison.set 1 (some ⟨3, 4⟩) }).hart.tilePoison[1] = some ⟨3, 4⟩) ∧
    (let s := tiles fun h => { h with queue := [h.entry .zero 0 0 0 0 0 0 0 0 0 0] }
     s.hart.live = true ∧ s.spilled s.hart = false ∧ s.hart.queue = [s.hart.entry .zero 0 0 0 0 0 0 0 0 0 0] ∧
      s.hart.convoys = [] ∧ s.hart.brimConvoys = []) ∧
    ((tiles id).hart.busyX [2] = false ∧ (tiles id).x 2 &&& ~~~0x13F3F = 0 ∧ (tiles id).x 7 &&& ~~~0x13F3F = 0 ∧
      (withXs 0x40 0).x 5 &&& ~~~0x13F3F ≠ 0) ∧ (tiles id).unhindered 8 [] := by
  unfold State.unhindered; decide +kernel

/-- A row of the tile is read by a queued `mtv`; waits are left open. -/
theorem witness_TileMoves_queued :
    (let s := lagging (tiles id)
     s.lag = true ∧ s.unhindered 8 [2] ∧ s.hart.still = true ∧ s.hart.queue = [] ∧ s.hart.wait = none ∧
      (waitingFor (.mtv 4 0 2) s).awake = true ∧ (s.x 2).toNat + s.hart.count.groups ≤ 64) ∧
    (let e := { (tiles id).hart.entry .mtv 0 4 0 0 0 0 0 0 0 0 with rows := List.replicate 8 5 }
     let s := tiles fun h => { h with queue := [e] }
     s.hart.live = true ∧ s.spilled s.hart = false ∧ s.hart.queue = [e] ∧ s.hart.convoys = [] ∧ s.hart.brimConvoys = [] ∧ e.op = .mtv ∧
      e.rows = 5 :: List.replicate 7 5 ∧ (List.replicate 7 (5 : Group)).length < e.count.groups) := by
  unfold State.unhindered; decide +kernel

/-- A window of `n` elements with its copies at the start of the scratchpad. -/
def opening (n area : Word) : State := withHart fun h => { h with x := ((h.x.set 5 0x10000).set 6 n).set 28 area }

theorem witness_WindowsOpenAndClose :
    core0.hart.elem ≠ .e2m1 ∧ core0.hart.convoys = [] ∧ core0.unhindered 4 [] ∧ Memory.wf core0.mem = true ∧
      (opening 8 0xFFFFFFF000000000).windowTrap ((opening 8 0xFFFFFFF000000000).x 5) ((opening 8 0xFFFFFFF000000000).x 6)
        ((opening 8 0xFFFFFFF000000000).x 28) = none ∧
      (opening 8 0xFFFFFFF000000000).unhindered 4 [] ∧
      (opening 0 0xFFFFFFF000000000).windowTrap ((opening 0 0xFFFFFFF000000000).x 5) ((opening 0 0xFFFFFFF000000000).x 6)
        ((opening 0 0xFFFFFFF000000000).x 28) = some (.bound, 0) ∧
      (opening 8 0).windowTrap ((opening 8 0).x 5) ((opening 8 0).x 6) ((opening 8 0).x 28) = some (.access, 0) := by
  unfold State.unhindered; decide +kernel

/-! ## Witnesses: convoys -/

/-- A convoy of these members passes every check of its issue. -/
abbrev Passes (s : State) (ms : List (Instr × Word)) : Prop :=
  s.issueTrap ms = none ∧ s.edge s.hart.pc (s.hart.pc + BitVec.ofNat 64 (4 * ms.length)) = .start ∧ s.hart.syncTrap ms = none

theorem witness_ConvoysEnterTheirLine :
    (∃ v, vinfo (.vadd 0 1 2 3 0 0) = some v ∧ core0.gather (.vadd 0 1 2 3 0 0) v = ([(.vadd 0 1 2 3 0 0, 0x1000)], .whole, core0)) ∧
    forwardConflict [(.vadd 0 1 2 3 0 0, 0x1000)] = none ∧ core0.hart.convoyBlocked [(.vadd 0 1 2 3 0 0, 0x1000)] = false ∧
    core0.hart.convoys = [] ∧ Passes core0 [(.vadd 0 1 2 3 0 0, 0x1000)] ∧ core0.hart.reissue = 0 ∧
    (∃ v, vinfo (.vext 1 3 2 4 0) = some v ∧ core0.gather (.vext 1 3 2 4 0) v = ([(.vext 1 3 2 4 0, 0x1000)], .whole, core0)) ∧
    core0.hart.convoyBlocked [(.vext 1 3 2 4 0, 0x1000)] = false ∧ Passes core0 [(.vext 1 3 2 4 0, 0x1000)] ∧
    (∃ v, vinfo (.vcmpEq 3 1 2 0 0) = some v ∧
      ownedMask.gather (.vcmpEq 3 1 2 0 0) v = ([(.vcmpEq 3 1 2 0 0, 0x1000)], .whole, ownedMask)) ∧
    ownedMask.hart.convoyBlocked [(.vcmpEq 3 1 2 0 0, 0x1000)] = false ∧
    ownedMask.issueTrap [(.vcmpEq 3 1 2 0 0, 0x1000)] = some (.owned, 3) ∧
    (let s := withHart fun h => { h with reissue := 3 }
     Passes s [(.vadd 0 1 2 3 0 0, 0x1000)] ∧ s.hart.reissue = 3 ∧
      s.hart.convoyBlocked [(.vadd 0 1 2 3 0 0, 0x1000)] = false) := by
  refine ⟨⟨_, rfl, rfl⟩, by decide +kernel, by decide +kernel, rfl, by decide +kernel, rfl, ⟨_, rfl, rfl⟩, by decide +kernel,
    by decide +kernel, ⟨_, rfl, rfl⟩, by decide +kernel, by decide +kernel, by decide +kernel⟩

/-- A loop of level 0 whose body ends behind the instruction at the pc and begins inside a convoy. -/
def loopsBack : State :=
  { withHart fun h => { h with csr := { h.csr with lcnt := #v[2, 0], lstart := #v[0xF04, 0], lend := #v[0x1004, 0] } } with
    mem := writeCells [] 0xF00 (toBytes 0x1422D223 4) }

/-- The back edge of a convoy leads into a convoy; and one that synchronises while BSUM holds an error. -/
theorem witness_ConvoysEnterTheirLine_traps :
    (∃ v, vinfo (.vadd 0 1 2 3 0 0) = some v ∧ loopsBack.gather (.vadd 0 1 2 3 0 0) v = ([(.vadd 0 1 2 3 0 0, 0x1000)], .whole, loopsBack)) ∧
    loopsBack.hart.convoyBlocked [(.vadd 0 1 2 3 0 0, 0x1000)] = false ∧ loopsBack.issueTrap [(.vadd 0 1 2 3 0 0, 0x1000)] = none ∧
    loopsBack.edge 0x1000 0x1004 = .no ∧
    (let s := withHart fun h => { h with csr := { h.csr with bsum := 1 } }
     (∃ v, vinfo (.vext 1 3 2 4 0) = some v ∧ s.gather (.vext 1 3 2 4 0) v = ([(.vext 1 3 2 4 0, 0x1000)], .whole, s)) ∧
      s.hart.convoyBlocked [(.vext 1 3 2 4 0, 0x1000)] = false ∧ s.issueTrap [(.vext 1 3 2 4 0, 0x1000)] = none ∧
      s.edge 0x1000 0x1004 = .start ∧ s.hart.syncTrap [(.vext 1 3 2 4 0, 0x1000)] = some (.brim, 1)) := by
  refine ⟨⟨_, rfl, rfl⟩, by decide +kernel, by decide +kernel, by decide +kernel, ⟨_, rfl, rfl⟩, by decide +kernel⟩

/-- The state with a convoy in flight, and that convoy. -/
def flying (brim : Bool) : State := if brim then brimBusy else crownBusy
def flight (brim : Bool) : Convoy :=
  ((if brim then (flying brim).hart.brimConvoys else (flying brim).hart.convoys).head?).getD
    (core0.convoyOf [(.vadd 0 1 2 3 0 0, 0x1000)])

/-- The hypotheses of the statement at a convoy of `vadd`, in either bank. -/
def GroupReady (brim : Bool) : Prop :=
  let s := flying brim
  let h := s.hart
  (h.live = true ∧ s.spilled h = false ∧ h.halted = false ∧ s.stalled (if brim then .brim h.id else .hart h.id) = false ∧
    (if brim then h.convoys = [] ∧ h.brimConvoys = [flight brim]
      else h.queue = [] ∧ h.brimConvoys = [] ∧ h.convoys = [flight brim]) ∧
    (flight brim).brim = brim ∧ (flight brim).members.length = 1 ∧
    ((flight brim).members.map fun m => m.instr) = [.vadd (if brim then 1 else 0) 1 2 3 0 0]) ∧
    h.badCrown = [] ∧ h.badBrim = [] ∧ (∀ g : Fin 256, h.brimPoison[g] = 0) ∧ (flight brim).next + 1 < h.count.groups ∧
    (1#5).toNat < h.count.regs

theorem witness_LaneGroupsCommit :
    GroupReady false ∧ GroupReady true ∧
      ∀ p : BitVec 1, ∃ v op, vinfo (.vadd p 1 2 3 0 0) = some v ∧ v.kind = .lanes 1 (some 2) (some 3) false op ∧
        v.brim = decide (p = 1) := by
  refine ⟨?_, ?_, fun p => ⟨_, _, rfl, rfl, rfl⟩⟩ <;> (unfold GroupReady; decide +kernel)

/-- A crown or brim convoy of these members stands at its group `g`, and a younger one behind it. -/
def convoyed (is : List Instr) (g : Nat) : Convoy :=
  { withXs 0x8000000000000000 0 |>.convoyOf (is.map fun i => (i, 0x1000)) with next := g }
def queueing (is : List Instr) (brim : Bool) (g : Nat) : State :=
  let line := [convoyed is g, convoyed [.vsub (if brim then 1 else 0) 9 2 3 0 0] 0]
  withHart fun h => if brim then { h with brimConvoys := line } else { h with convoys := line }

/-- The hypotheses of the second part of the statement. -/
def MembersReady (is : List Instr) (brim : Bool) (g : Nat) : Prop :=
  let s := queueing is brim g
  let h := s.hart
  (h.live = true ∧ s.spilled h = false ∧ h.halted = false ∧ s.stalled (if brim then .brim h.id else .hart h.id) = false ∧
    (if brim then h.convoys = [] ∧ h.brimConvoys.head? = some (convoyed is g)
      else h.queue = [] ∧ h.brimConvoys = [] ∧ h.convoys.head? = some (convoyed is g)) ∧
    (convoyed is g).brim = brim ∧ (convoyed is g).sync = false ∧ h.badCrown = [] ∧ h.badBrim = [] ∧
    ((convoyed is g).members.map fun m => m.instr) = is ∧ (convoyed is g).next = g ∧ g < h.count.groups) ∧
    ∀ g : Fin 256, h.brimPoison[g] = 0

/-- Several members, at their first and their last group; and with a store whose address is not canonical. -/
theorem witness_LaneGroupsCommit_members :
    MembersReady [.vadd 0 1 2 3 0 1, .vmulX 0 4 5 1 0 0] false 0 ∧ MembersReady [.vadd 0 1 2 3 0 1, .vmulX 0 4 5 1 0 0] false 7 ∧
      MembersReady [.vadd 1 1 2 3 0 1, .vmul 1 4 1 1 0 0] true 7 ∧ MembersReady [.vadd 0 1 2 3 0 1, .vst 0 4 5 0 0] false 2 ∧
      ((convoyed [.vadd 0 1 2 3 0 1, .vst 0 4 5 0 0] 2).members.map fun m =>
        (m.instr, canonical (m.sa + BitVec.ofNat 64 (128 * (32 / 8)))))[1]? = some (.vst 0 4 5 0 0, false) ∧ 128 / (2048 / 32) = 2 ∧
      ∃ v, vinfo (.vst 0 4 5 0 0) = some v ∧ v.kind = .store 4 .vector .unit := by
  refine ⟨?_, ?_, ?_, ?_, by decide +kernel, rfl, ⟨_, rfl, rfl⟩⟩ <;> (unfold MembersReady; decide +kernel)

/-- A brim convoy that has run its groups, and a brim synchronisation that has not begun. -/
def allGroupsDone : State :=
  { brimBusy with hart := { brimBusy.hart with brimConvoys := [{ flight true with next := 8 }] } }
def syncWaits : State :=
  match execVext 1 3 2 4 0 { core0 with lag := true } with
  | .next t => t
  | _ => core0

theorem witness_BrimConvoysComplete :
    (allGroupsDone.hart.live = true ∧ allGroupsDone.spilled allGroupsDone.hart = false ∧ allGroupsDone.hart.halted = false ∧
      allGroupsDone.stalled (.brim allGroupsDone.hart.id) = false ∧ allGroupsDone.hart.convoys = [] ∧
      allGroupsDone.hart.brimConvoys = [{ flight true with next := 8 }] ∧ (flight true).brim = true ∧ (flight true).sync = false ∧
      ((flight true).members.map fun m => m.instr) = [.vadd 1 1 2 3 0 0] ∧ allGroupsDone.hart.count.groups = 8 ∧
      allGroupsDone.accessesAway { flight true with next := 8 } = false) ∧
    (syncWaits.hart.live = true ∧ syncWaits.spilled syncWaits.hart = false ∧ syncWaits.hart.halted = false ∧
      syncWaits.stalled (.brim syncWaits.hart.id) = false ∧ syncWaits.hart.convoys = [] ∧
      (syncWaits.hart.brimConvoys.map fun c => (c.brim, c.sync, c.next, c.members.map fun m => m.instr)) =
        [(true, true, 0, [.vext 1 3 2 4 0])] ∧ syncWaits.hart.badBrim = []) ∧
    (∀ g : Fin 256, syncWaits.hart.brimPoison[g] = 0) ∧
    ∃ v, vinfo (.vext 1 3 2 4 0) = some v ∧ v.kind = .extract 3 2 ∧ v.brim = true := by
  refine ⟨by decide +kernel, by decide +kernel, by decide +kernel, ⟨_, rfl, rfl, rfl⟩⟩

/-- A lane of 32 bits read as FP32; operands of the conversions at the ends of their ranges; and 1 lies between 2^0 and
2^1. -/
theorem witness_LaneOperations :
    (let l : Lane := ⟨32, .fp32, 0⟩
     l.w ∈ [4, 8, 16, 32, 64] ∧ l.fmt.width = l.w ∧ 0xFFFFFFFF < 2 ^ l.w) ∧
    (1 < 2 ∧ 64 ≤ 64 ∧ 4 ≤ 4 ∧ 254 < 255 ∧ (BitVec.ofNat 8 0xFF).toInt ≠ 0 ∧ (BitVec.ofNat 8 0).toInt = 0 ∧ 0xFF < 2 ^ 8 ∧
      finite .fp32 0x3F800000 = some 1 ∧ (1 : Rat) ≠ 0 ∧ (2 : Rat) ^ (0 : Int) ≤ |1| ∧ |1| < (2 : Rat) ^ ((0 : Int) + 1)) ∧
    (notNumber .fp32 0x7FC00000 ∨ infinite .fp32 0x7FC00000) := by
  refine ⟨by decide +kernel, by decide +kernel, .inl (by unfold notNumber infinite; decide +kernel)⟩

/-! ## Witnesses: vector instructions that run to their last group -/

/-- What the statements ask for a vector instruction that runs at once, as one test. -/
def freeFor (s : State) (i : Instr) : Bool :=
  match vinfo i with
  | some v => !v.c && decide (memberError s.hart.count true v.brim v = none) && decide (s.issueTrap [(i, s.hart.pc)] = none) &&
    decide (s.hart.syncTrap [(i, s.hart.pc)] = none)
  | none => false

/-- It runs at once in a state where nothing is in flight. -/
theorem free_of (s : State) (i : Instr) (h : freeFor s i = true) (q : s.edge s.hart.pc (s.nextPc 4) = .start)
    (e : s.lag = false ∧ s.hart.live = true ∧ s.spilled s.hart = false ∧ s.hart.halted = false ∧
      s.stalled (.hart s.hart.id) = false ∧ s.stalled (.brim s.hart.id) = false ∧ s.hart.still = true ∧ s.hart.queue = [] ∧
      s.hart.stores = [] ∧ s.hart.reissue = 0 ∧ s.hart.wait = none ∧ s.hart.csr.bsum.getLsbD 23 = false)
    (r : ∀ r ∈ s.remote, r.owner ≠ .brim s.hart.id) (b : s.hart.badCrown = [] ∧ s.hart.badBrim = [])
    (p : ∀ g : Fin 256, s.hart.brimPoison[g] = 0) : ∃ v, s.vectorFree i v := by
  unfold freeFor at h
  match g : vinfo i with
  | none => simp [g] at h
  | some v =>
    simp only [g, Bool.and_eq_true, Bool.not_eq_true', decide_eq_true_eq] at h
    exact ⟨v, e.1, e.2.1, e.2.2.1, e.2.2.2.1, e.2.2.2.2.1, e.2.2.2.2.2.1, e.2.2.2.2.2.2.1, e.2.2.2.2.2.2.2.1,
      e.2.2.2.2.2.2.2.2.1, e.2.2.2.2.2.2.2.2.2.1, e.2.2.2.2.2.2.2.2.2.2.1, e.2.2.2.2.2.2.2.2.2.2.2, r, g, h.1.1.1, h.1.1.2, h.1.2, q, h.2, b.1, b.2, p⟩

/-- Every vector instruction of the list meets them in `core0`: one for each clause, in the crown and in the brim. -/
theorem witness_VectorRegisterResults :
    ∀ i ∈ [Instr.vadd 0 1 2 3 1 0, .vfma 1 1 2 3 0 0, .vaddX 0 1 2 3 1 0, .vfmaX 1 1 2 3 0 0, .vid 0 1 1 0, .viota 0 1 2 1 0,
      .vslideup 0 1 2 3 1 0, .vslidedn 1 1 2 3 1 0, .vperm 0 1 2 3 1 0, .vcompress 0 1 2 1 0, .vexpand 1 1 2 1 0,
      .vconf 0 1 2 1 0, .vscanAdd 0 1 2 1 0, .vrec 0 1 2 3 1 0, .vdup 0 1 2 1 0, .vins 1 1 2 3 0, .vmv 0 1 2 1 0,
      .vmerge 0 1 2 3 1 0, .vmovcb 1 2 1, .vmovbc 1 2 1, .vcvt 0 2 1 1 2 1 0, .vsprs 0 2 5 1 0], ∃ v, core0.vectorFree i v := by
  intro i hi
  have h : ([Instr.vadd 0 1 2 3 1 0, .vfma 1 1 2 3 0 0, .vaddX 0 1 2 3 1 0, .vfmaX 1 1 2 3 0 0, .vid 0 1 1 0, .viota 0 1 2 1 0,
      .vslideup 0 1 2 3 1 0, .vslidedn 1 1 2 3 1 0, .vperm 0 1 2 3 1 0, .vcompress 0 1 2 1 0, .vexpand 1 1 2 1 0,
      .vconf 0 1 2 1 0, .vscanAdd 0 1 2 1 0, .vrec 0 1 2 3 1 0, .vdup 0 1 2 1 0, .vins 1 1 2 3 0, .vmv 0 1 2 1 0,
      .vmerge 0 1 2 3 1 0, .vmovcb 1 2 1, .vmovbc 1 2 1, .vcvt 0 2 1 1 2 1 0, .vsprs 0 2 5 1 0] : List Instr).all (freeFor core0) = true := by decide +kernel
  exact free_of core0 i (List.all_eq_true.mp h i hi) (by decide +kernel) (by decide +kernel)
    (by decide +kernel) (by decide +kernel) (by decide +kernel)

theorem witness_VectorScalarAndMaskResults :
    ∀ i ∈ [Instr.vcmpEq 3 1 2 1 0, .vfcmpLt 0 1 2 1 0, .vredsum 0 3 2 1 0, .vfredsum 1 3 2 1 0, .vext 0 3 2 4 0, .vext 1 0 2 4 0],
      ∃ v, core0.vectorFree i v := by
  intro i hi
  have h : ([Instr.vcmpEq 3 1 2 1 0, .vfcmpLt 0 1 2 1 0, .vredsum 0 3 2 1 0, .vfredsum 1 3 2 1 0, .vext 0 3 2 4 0, .vext 1 0 2 4 0] :
      List Instr).all (freeFor core0) = true := by
    decide +kernel
  exact free_of core0 i (List.all_eq_true.mp h i hi) (by decide +kernel) (by decide +kernel)
    (by decide +kernel) (by decide +kernel) (by decide +kernel)

/-- m1 governs element 2 alone. -/
def oneActive : State := withHart fun h => { h with m := h.m.set 1 (1 <<< 8), csr := { h.csr with vxb := 0x1000 } }

/-- The further hypotheses for an access of 4 bytes whose address is 0x2000 and something. -/
def AccessMade (i : Instr) (g : BitVec 3) (ag : Agent) (need : Need) (va : Word) : Prop :=
  (∀ k < 512, (oneActive.hart.mask (g.setWidth 5)).getLsbD (governing 32 k) = decide (k = 2)) ∧ 2 < 512 / oneActive.hart.count.groups ∧
    canonical va = true ∧
    ((oneActive.enterLine i (oneActive.convoyOf [(i, 0x1000)])).reachAll ag need va 4).1 = .ok [onPage va.toNat 4]

theorem witness_VectorAccessResults :
    (∀ i ∈ [Instr.vld 0 1 1 1 0, .vldsL 1 1 2 1 0, .vldx 1 1 3 1 0, .vst 1 1 1 1 0, .vstxBd 1 1 3 1 0], ∃ v, oneActive.vectorFree i v) ∧
    Memory.wf oneActive.mem = true ∧ oneActive.hart.ffxOrder ≤ oneActive.hart.issued ∧
    AccessMade (.vld 0 1 1 1 0) 1 .vector ⟨true, false, false⟩ 0x2008 ∧
    AccessMade (.vldsL 1 1 2 1 0) 1 .lateral ⟨true, false, false⟩ 0x2006 ∧
    AccessMade (.vldx 1 1 3 1 0) 1 .vector ⟨true, false, false⟩ 0x2000 ∧
    AccessMade (.vst 1 1 1 1 0) 1 .vertical ⟨false, true, false⟩ 0x2008 ∧
    AccessMade (.vstxBd 1 1 3 1 0) 1 .vector ⟨false, true, false⟩ 0x2000 ∧
    ((0 : Int) ≤ (BitVec.ofNat 32 (oneActive.hart.elemAt false 3 32 2)).toInt ∧
      (BitVec.ofNat 32 (oneActive.hart.elemAt false 3 32 2)).toInt < (oneActive.hart.csr.vxb.extractLsb' 0 32).toNat) ∧
    writable [onPage 0x2008 4] := by
  refine ⟨?_, rfl, by decide +kernel, ?_, ?_, ?_, ?_, ?_, by decide +kernel, ?_⟩
  · intro i hi
    have h : ([Instr.vld 0 1 1 1 0, .vldsL 1 1 2 1 0, .vldx 1 1 3 1 0, .vst 1 1 1 1 0, .vstxBd 1 1 3 1 0] : List Instr).all (freeFor oneActive) = true := by decide +kernel
    exact free_of oneActive i (List.all_eq_true.mp h i hi) (by decide +kernel) (by decide +kernel)
      (by decide +kernel) (by decide +kernel) (by decide +kernel)
  all_goals try (unfold AccessMade; decide +kernel)
  refine ⟨?_, by simp⟩
  intro p hp
  simp only [List.mem_singleton] at hp
  subst hp
  refine ⟨⟨_, rfl⟩, ?_⟩
  rintro k ⟨l, hl, h1, h2⟩ q hq e he
  simp only [List.mem_singleton] at hq
  subst hq
  cases hl
  cases he
  simp only [onPage, page] at *
  omega

/-- The base of accesses of the hart's scratchpad: all 512 words lie in it, or they leave it at element 64, or at once. -/
def local_ (base : Word) : State := withHart fun h => { h with x := h.x.set 5 base }

/-- An element that the windows reach, at `l`; and one beyond them. -/
def Reached (s : State) (k l : Nat) : Prop :=
  let va := s.x 5 + BitVec.ofNat 64 (4 * k)
  canonical va = true ∧ inLocal va = true ∧ va.toNat % 256 + 4 ≤ 256 ∧ s.localWindow false va 4 = some l ∧ s.readFails l 4 = false
def Beyond (s : State) (k : Nat) : Prop :=
  let va := s.x 5 + BitVec.ofNat 64 (4 * k)
  canonical va = true ∧ inLocal va = true ∧ va.toNat % 256 + 4 ≤ 256 ∧ s.localWindow false va 4 = none

theorem witness_VectorAccessResults_many :
    (∀ i ∈ [Instr.vld 0 1 5 0 0, .vst 0 1 5 0 0], ∃ v, (local_ 0xFFFFFFF000000000).vectorFree i v) ∧
      (∀ k < 512, Reached (local_ 0xFFFFFFF000000000) k (scratchBase 0 + 4 * k)) ∧
      (∀ k < 64, Reached (local_ 0xFFFFFFF0002FFF00) k (scratchBase 0 + 0x2FFF00 + 4 * k)) ∧ Beyond (local_ 0xFFFFFFF0002FFF00) 64 ∧
      Beyond (local_ 0xFFFFFFF000300000) 0 := by
  refine ⟨?_, ?_, ?_, by unfold Beyond; decide +kernel, by unfold Beyond; decide +kernel⟩
  · intro i hi
    have h : ([Instr.vld 0 1 5 0 0, .vst 0 1 5 0 0] : List Instr).all (freeFor (local_ 0xFFFFFFF000000000)) = true := by decide +kernel
    exact free_of _ i (List.all_eq_true.mp h i hi) (by decide +kernel) (by decide +kernel)
      (by decide +kernel) (by decide +kernel) (by decide +kernel)
  all_goals (unfold Reached; decide +kernel)

/-- A window of four entries over the table at 0x10000 of the scratchpad, its copies at the start; `vwmerge` follows. -/
def windowed : State :=
  withHart fun h => { h with window := some ⟨0xFFFFFFF000010000, 4, 0, .fp32, 0, 0⟩, v := h.v.set 16 (BitVec.ofNat 2048 9) }

theorem witness_WindowsOpenAndClose_sums :
    (∀ i ∈ [Instr.vwred 1 3 0 0, .vwred 1 2 0 0, .vwmerge], ∃ v, windowed.vectorFree i v) ∧ Memory.wf windowed.mem = true ∧
      32 * 4 * 4 ≤ scratchBytes ∧
      (∀ k < 32, ∀ j < 4, windowed.readFails (scratchBase 0 + (k * 4 + j) * 4) 4 = false) ∧
      (∀ k < 512, windowed.hart.elemAt false 3 32 k = 0) ∧ windowed.hart.elemAt false 2 32 0 = 9 ∧
      (∀ j < 4, let va : Word := 0xFFFFFFF000010000 + BitVec.ofNat 64 (j * 4)
        canonical va = true ∧ inLocal va = true ∧ va.toNat % 256 + 4 ≤ 256 ∧
          windowed.localWindow false va 4 = some (scratchBase 0 + 0x10000 + j * 4) ∧
          windowed.readFails (scratchBase 0 + 0x10000 + j * 4) 4 = false) ∧
      scratchBase 0 + 32 * 4 * 4 ≤ scratchBase 0 + 0x10000 := by
  refine ⟨?_, by decide +kernel, by decide +kernel, by decide +kernel, by decide +kernel, by decide +kernel, by decide +kernel,
    by decide +kernel⟩
  intro i hi
  have h : ([Instr.vwred 1 3 0 0, .vwred 1 2 0 0, .vwmerge] : List Instr).all (freeFor windowed) = true := by decide +kernel
  exact free_of _ i (List.all_eq_true.mp h i hi) (by decide +kernel) (by decide +kernel)
    (by decide +kernel) (by decide +kernel) (by decide +kernel)

/-! ## Witnesses: events of the cores -/

/-- A hart of the cluster-placed farm, where every instruction can end its wait. -/
def waiter : State :=
  { farmed clusterBit id with
    hart := { hart0 with x := (hart0.x.set 5 0x40).set 7 256 }
    pkg := { PackageCsrs.reset with stalimit := 16 } }

/-- The instruction ends its wait there: `exec` answers another state in which the hart waits no more. It has gone on, or has
given its place up. -/
def endsWait (i : Instr) : Bool :=
  (match i with
   | .csrr _ c => csrAllowed waiter.hart.mode c
   | .csrw _ c _ => csrAllowed waiter.hart.mode c
   | _ => true) &&
    match exec i waiter with
    | .next t => decide (t.hart.wait = none) && (decide (t.hart.pc ≠ waiter.hart.pc) || !t.hart.live)
    | _ => false

theorem witness_EventsEndWaits :
    (∀ p ∈ [((isLoad, .ldD 3 1 0) : (Instr → Bool) × Instr), (isRelease, .stRelD 2 1 0), (isAtomic, .amoadd 1 3 2 1 0), (isFence, .fenceAll 0),
      (isIcsync, .icsync 0), (isMatrixPost, .mzero 0), (isMtv, .mtv 1 0 3), (isMshape, .mshape 3), (isMsync, .msync)],
      p.1 p.2 = true ∧ endsWait p.2 = true) ∧
    (∀ p ∈ [((isEngine, .copyL 1 4 2) : (Instr → Bool) × Instr), (isStctl, .stctlStream 3 2), (isAwadd, .awadd 1 2 0), (isCarrive, .carrive 2 2),
      (isFarmnext, .farmnext 3), (isRetire, .retire), (isVcfg, .vcfg 3 2 3 0), (isBsync, .bsync),
      (isCsrWrite, .csrw 3 0x00A 1), (writesCsr 0x000, .csrw 3 0x000 2), (writesCsr 0x003, .csrw 3 0x003 2),
      (writesCsr 0x012, .csrw 3 0x012 2), (writesCsr 0x109, .csrw 3 0x109 2), (isOtherWrite, .csrw 3 0x200 2)],
      p.1 p.2 = true ∧ endsWait p.2 = true) ∧
    (∀ p ∈ [((writesCsr 0x303, .csrw 3 0x303 3) : (Instr → Bool) × Instr), (writesCsr 0x300, .csrw 3 0x300 3), (writesCsr 0x301, .csrw 3 0x301 3),
      (writesCsr 0x306, .csrw 3 0x306 3), (waiter.xinvWrite false, .csrw 3 0x306 3), (writesCsr 0x311, .csrw 3 0x311 3),
      (writesCsr 0x312, .csrw 3 0x312 3), (writesCsr 0x323, .csrw 3 0x323 3), (writesCsr 0x340, .csrw 3 0x340 2),
      (writesCsr 0x330, .csrw 3 0x330 3), (writesCsr 0x331, .csrw 3 0x331 3), (readsCsr 0x203, .csrr 3 0x203),
      (readsCsr 0x204, .csrr 3 0x204), (readsCsr 0x313, .csrr 3 0x313), (readsCsr 0x321, .csrr 3 0x321),
      (readsCsr 0x322, .csrr 3 0x322), (readsCsr 0x333, .csrr 3 0x333), (readsCsr 0x341, .csrr 3 0x341)],
      p.1 p.2 = true ∧ endsWait p.2 = true) ∧
    (let u := { waiter with hart := { waiter.hart with x := waiter.hart.x.set 5 0x8000000000000000 } }
     u.xinvWrite true (.csrw 3 0x306 5) = true) ∧
    isLoad (.add 1 2 3) = false ∧ waiter.awake = true ∧ waiter.lag = false := by
  refine ⟨?_, ?_, ?_, ?_, ?_, ?_, ?_⟩ <;> decide +kernel

theorem witness_EventsEndWaits_launch :
    let s := launching 0x100800008 false
    s.hart.live = true ∧ s.hart.still = true ∧ s.ctl.launches = [] ∧ s.lag = false := by decide +kernel

/-- With waits left open: one instruction of each kind. -/
theorem witness_EventsEndWaits_open :
    (lagging core0).lag = true ∧ (lagging core0).hart.still = true ∧
      ∀ i ∈ [Instr.ldD 3 1 0, .stRelD 2 1 0, .amoadd 1 3 2 1 0, .fenceAll 0, .icsync 0, .mzero 0, .mtv 1 0 3, .mshape 3, .msync,
        .copyL 1 4 2, .stctlStream 3 2, .awadd 1 2 0, .carrive 2 2, .vcfg 3 2 3 0, .bsync, .farmnext 3, .retire],
        ([isLoad, isRelease, isAtomic, isFence, isIcsync, isMatrixPost, isMtv, isMshape, isMsync, isEngine, isStctl, isAwadd,
          isCarrive, isVcfg, isBsync, isFarmnext, isRetire].any fun kind => kind i) = true := by decide +kernel

/-- A hart asleep on a watch of the word at 0x2000, which it has seen so. -/
def asleep (w : Watch) (seen : Seen) (f : State → State) : State :=
  f { core0 with hart := { hart0 with sleep := some ⟨w, false, false, 0x2000, seen, false⟩, passed := 6 } }

/-- A farm's hart asleep in its barrier. -/
def inBarrier (more : Word) (barrier round : Nat) : State :=
  { farmed (more ||| residentBit) (fun f => { f with barrier := barrier }) with
    hart := { hart0 with sleep := some ⟨.gbar, false, false, 0, .quiet, false⟩, round := round } }

/-- A crown load in flight, and a store that was posted behind it. -/
def crownLoading : State :=
  match execVld 0 1 1 1 0 (lagging oneActive) with
  | .next t => { t with hart := { t.hart with stores := [⟨0x2000, [1, 2], 9, 0x2000, false⟩] } }
  | _ => core0

/-- A brim load from the page in flight; its read of the word at 0x2000 fails. -/
def brimLoading : State :=
  match execVld 1 1 1 1 0 { oneActive with lag := true } with
  | .next t => t
  | _ => core0

theorem witness_CoreEvents :
    (let s := asleep (.gen 0x2000 3) .due id
     (s.place 0).live = true ∧ 6 ≤ (s.place 0).passed ∧ (s.focus 0).core.wgate ≠ 0 ∧ (s.focus 0).hart.sleep = some ⟨.gen 0x2000 3, false, false, 0x2000, .due, false⟩ ∧
      .due ≠ (s.focus 0).look (.gen 0x2000 3) 0x2000 ∧ (s.focus 0).stalled (.hart 0) = false ∧
      s.cores[0].wpower ≠ 0 ∧ s.cores[0].powerGated = false ∧
      (∀ p : BitVec 2, (s.place ((0#5) ++ (0#2) ++ p)).live = true → (s.place ((0#5) ++ (0#2) ++ p)).sleep ≠ none) ∧
      (s.focus 0).spilled (s.focus 0).hart = false ∧
      Watch.gen 0x2000 3 = .gen ((s.focus 0).x 1) (((s.focus 0).x 2).extractLsb' 0 32) ∧ (s.focus 0).hart.busyX [1, 2] = false ∧
      (s.focus 0).hart.convoys = [] ∧ (s.focus 0).plat.portUp = true ∧ (s.focus 0).core.wreport ≠ 0) ∧
    (let s := asleep (.ne 0x2000 3) .due fun s => { s with cores := Vector.replicate 128 { Core.reset with wgate := 0, wpower := 0, wreport := 0 } }
     (s.focus 0).core.wgate = 0 ∧ s.cores[0].wpower = 0 ∧ (s.focus 0).core.wreport = 0 ∧
      Watch.ne 0x2000 3 = .ne ((s.focus 0).x 1) ((s.focus 0).x 2)) ∧
    ((asleep (.slot 3 0) .due id).x 2 = 3 ∧ ((asleep (.slot 3 0) .due id).x 3).extractLsb' 0 32 = 0) ∧
    (core0.look (.gen 0x2000 3) 0x2000 =
      ((asleep (.gen 0x2000 3) (core0.look (.gen 0x2000 3) 0x2000) id).focus 0).look (.gen 0x2000 3) 0x2000) ∧
    (core0.place 0).passed < 6 ∧ (withHart fun h => { h with wait := some (.ldD 3 1 0) }).hart.wait ≠ none := by
  decide +kernel

theorem witness_CoreEvents_barrier :
    (let s := inBarrier 0 0 1
     s.hart.sleep = some ⟨.gbar, false, false, 0, .quiet, false⟩ ∧ s.hart.live = true ∧ s.spilled s.hart = false ∧
      (s.farmOf s.hart).map (fun f => decide (f.barrier < s.hart.round)) = some true) ∧
    (let s := inBarrier 0 1 1
     (s.farmOf s.hart).map (fun f => decide (s.hart.round ≤ f.barrier)) = some true ∧ s.unhindered 4 []) ∧
    (let s := { farmed 0x8000000000000000 id with
       hart := { hart0 with sleep := some ⟨.gen 0x2000 3, false, false, 0x2000, .due, true⟩ } }
     (s.farmOf s.hart).map (fun f => f.record.control.getLsbD 63) = some true ∧ s.hart.convoys = [] ∧ s.plat.portUp = true) := by
  unfold State.unhindered; decide +kernel

theorem witness_CoreEvents_stores :
    (let s := withHart fun h => { h with stores := [⟨0x2000, [1, 2], 0, 0x2000, false⟩, ⟨0x2002, [3], 0, 0x2002, false⟩] }
     s.hart.stores[1]? = some ⟨0x2002, [3], 0, 0x2002, false⟩ ∧ Memory.wf s.mem = true ∧ s.hart.stores[0]? = some ⟨0x2000, [1, 2], 0, 0x2000, false⟩ ∧
      (0x2000 + ([1, 2] : List Byte).length ≤ 0x2002) ∧ (∀ q ∈ s.hart.stores, s.storeLoc q = some q.loc) ∧ s.hart.convoys = []) ∧
    (crownLoading.hart.stores[0]? = some ⟨0x2000, [1, 2], 9, 0x2000, false⟩ ∧
      (crownLoading.hart.convoys.any fun c => c.loads && decide (c.order < 9)) = true) ∧
    core0.plat.portUp = true ∧ core0.walkers[3].failed = false ∧ dramBytes ≤ 0x20000000000 ∧
    (let u := brimLoading.focus 0
     let b := ({ u with badUnits := 0x2000 :: u.badUnits, failing := some 0x2000 }).brimGroup groupsLeft
     touchesBad u 0x2000 1 = false ∧ b.plat.held = u.plat.held ∧
      b.plat.sent = u.plat.sent ++ [.event 0x0020 0 [10, BitVec.ofNat 64 (u.homedPa 0x2008), 0]]) ∧
    (let b := ({ core0 with badUnits := 0x2000 :: core0.badUnits, failing := some 0x2000 }).brimGroup groupsLeft
     b.plat.sent = core0.plat.sent ∧ b.plat.held = core0.plat.held ∧ b.plat.lost = core0.plat.lost) ∧
    (let v := { core0 with badUnits := [0x2000], failing := some 0x2000 }
     v.plat.portUp = true ∧ v.failing = some (0x2008 / 32 * 32) ∧ v.badUnits = [0x2008 / 32 * 32] ∧ v.poisoned = []) := by
  decide +kernel

/-- A hart sleeps on the word at 0x2000, which has been written twice; a write of one byte of it is counted. -/
theorem witness_CoreEvents_watched :
    let s := { asleep (.ne 0x2000 3) (.writes 2) id with watched := [(0x2000, 2)] }
    (∃ p ∈ s.watched, p.1 = 0x2000) ∧ 0x2000 < 0x201F + ([0] : List Byte).length ∧ 0x201F < 0x2000 + 32 ∧ ([0] : List Byte) ≠ [] ∧
      Seen.writes 2 = (s.focus 0).look (.ne 0x2000 3) 0x2000 ∧
      (s.focus 0).hart.sleep = some ⟨.ne 0x2000 3, false, false, 0x2000, .writes 2, false⟩ := by decide +kernel

/-! ## Witnesses: the farm controller -/

/-- A launch handed over, with a record of that control word, by the hart or by a message. -/
def handed (h : Option (HartId × BitVec 5)) (control : Word) : Launch :=
  ⟨h, 9, some (⟨0x1000, 0x2000, 0, 0, 0, 0, 0, 0, control⟩, List.replicate 128 0), 0, 0, 0, .supervisor⟩

/-- The controller has it to judge; `full` farms hold every entry of the table. -/
def judging (l : Launch) (full : Bool) : State :=
  { core0 with
    hart := { hart0 with wait := some (.launch 3 1) }
    ctl := { Controller.reset with
      launches := [l]
      farms := if full then (List.range 64).map fun k => { farm0 0 with entry := BitVec.ofNat 6 k } else [] } }

/-- The hypotheses on a launch of that control word, by the hart or by a message. -/
def CanJudge (l : Launch) (full : Bool) : Prop :=
  (judging l full).plat.portUp = true ∧ (judging l full).ctl.launches = [l] ∧ (judging l full).hart.wait = some (.launch 3 1) ∧
    (judging l full).hart.live = true ∧ (judging l full).straight 4

theorem witness_FarmsAreServed_launches :
    CanJudge (handed none 0) false ∧ CanJudge (handed (some (0, 3)) 0x2000000108800008) false ∧
      CanJudge (handed (some (0, 3)) 0x100800008) false ∧ CanJudge (handed none 0x100800008) true ∧
      CanJudge { handed none 0 with record := none } false := by
  unfold CanJudge State.straight; decide +kernel

theorem witness_FarmsAreServed_outcomes :
    (handed none 0).record.map (fun r => r.1.malformed) = some true ∧
    (handed none 0x2000000108800008).record.map (fun r => (r.1.malformed, r.1.unsatisfiable)) = some (false, true) ∧
    (handed none 0x100800008).record.map (fun r => (r.1.malformed, r.1.unsatisfiable)) = some (false, false) ∧
    (judging (handed none 0x100800008) false).ctl.freeEntry = some 0 ∧
    (judging (handed none 0x100800008) true).ctl.freeEntry = none := by decide +kernel

/-- The farm of a state at the entry 0. -/
def farmIn (s : State) : Farm := (s.farmAt 0).getD (farm0 0)

/-- A farm that depends on the word at 0x2000, which the tables map to 0x20000, and whose priority is `p`. -/
def depending (gen : BitVec 32) (phase : FarmPhase) (p : BitVec 2) : State :=
  let f := { farm0 0 with
    record := { (farm0 0).record with dep0 := 0x2000, gen0 := gen }
    ptbase := 0x4000, phase := phase, priority := p }
  { mapped 0 false with
    hart := Hart.reset 0
    ctl := { Controller.reset with farms := [f], accepted := 1 } }

/-- The hypotheses on a dependence that has been reached, or has not. -/
def Awaits (s : State) (f : Farm) (r : Dep) : Prop :=
  (s.farmAt 0 = some f ∧ f.phase = .waiting ∧ f.failing = none ∧ s.stalled (.farm 0) = false ∧ s.hungry f = false) ∧
    (s.depOf f f.record.dep0 f.record.gen0).1 = r ∧ f.record.dep1 = 0 ∧
    (s.ctlRead f.ptbase f.mode 0x2000 16).1 = .ok (List.replicate 16 0)

theorem witness_FarmsAreServed_dependences :
    Awaits (depending 0 .waiting 0) (farmIn (depending 0 .waiting 0)) .reached ∧
      Awaits (depending 1 .waiting 0) (farmIn (depending 1 .waiting 0)) .notYet := by
  unfold Awaits; decide +kernel

theorem witness_FarmsAreServed_starvation :
    (depending 0 .runnable 0).farmAt 0 = some (farmIn (depending 0 .runnable 0)) ∧
      (depending 0 .runnable 0).hungry (farmIn (depending 0 .runnable 0)) = true ∧ (depending 0 .runnable 0).pkg.fstarve ≠ 0 ∧
      (farmIn (depending 0 .runnable 0)).priority ≠ 3 ∧ (farmIn (depending 0 .runnable 3)).priority = 3 := by decide +kernel

/-- The state whose farm is served, and that farm. -/
def serving : State := depending 0 .runnable 2
def served : Farm := farmIn serving

/-- Where one offset serves, a plan has it, whatever the device chooses. -/
theorem plan_of (s : State) (f : Farm) (n k : Nat) (h : (f.offsets.map fun o => (o, (s.planAt f n o).length)) = [(0, k + 1)])
    (g : f.record.together = false) : ∃ off cores, s.plan f n = some (off, cores) := by
  unfold State.plan
  simp only [h]
  generalize Config.choice s.draws = c
  simp [g]
  split <;> simp

theorem witness_FarmsAreServed_places :
    let s := serving
    s.plat.portUp = true ∧ served ∈ s.ctl.farms ∧ s.hungry served = true ∧ s.farmAt served.entry = some served ∧
      (∀ g ∈ s.ctl.farms, s.hungry g = true → g ≠ served →
        g.priority.toNat < served.priority.toNat ∨ g.priority = served.priority ∧ served.order < g.order) ∧
      served.slices = [] ∧ ∃ off cores, s.plan served (s.wanted served) = some (off, cores) := by
  refine ⟨rfl, by decide +kernel, by decide +kernel, by decide +kernel, by decide +kernel, by decide +kernel, ?_⟩
  exact plan_of serving served _ 1 (by decide +kernel) (by decide +kernel)

/-- Two harts of a farm wait to start. -/
def starting : State :=
  { serving with
    ctl := { serving.ctl with starting := [⟨0, 4, 0, 0, 0⟩, ⟨0, 8, 1, 0, 0⟩] } }

theorem witness_FarmsAreServed_starts :
    starting.ctl.starting = [⟨0, 4, 0, 0, 0⟩, ⟨0, 8, 1, 0, 0⟩] ∧ starting.farmAt 0 = some served ∧ served.block.length = 128 ∧
      Memory.wf starting.mem = true ∧ ([⟨0, 4, 0, 0, 0⟩] : List Starting).map Starting.hart = [4] ∧ starting.plat.portUp = true := by
  decide +kernel

/-- A farm with its strips handed out and its harts gone; with a completion word or without. -/
def ending (completion : Word) (f : Farm → Farm) : State :=
  { mapped 0 false with
    hart := Hart.reset 0
    ctl := { Controller.reset with
      farms := [f { farm0 0 with
        record := { (farm0 0).record with completion := completion }
        ptbase := 0x4000, nexts := [8], started := 2, retired := 2 }] } }

/-- A slice of one hart is being spilled from core 0. -/
def spilling : State :=
  { farmed 0 (fun f => { f with started := 1 }) with
    ctl := { (farmed 0 fun f => { f with started := 1 }).ctl with spilling := [⟨0, 0, 1, 0x40000, 0x40000, 0⟩] } }

theorem witness_FarmsEnd_spill :
    spilling.farmAt 0 = some { farm0 0 with started := 1 } ∧ spilling.plat.portUp = true ∧ spilling.parked = [] ∧
      spilling.ctl.spilling = [⟨0, 0, 1, 0x40000, 0x40000, 0⟩] ∧ spilling.works = [] ∧ spilling.remote = [] ∧
      spilling.migrations = [] ∧ spilling.ctl.launches = [] ∧ spilling.finished { farm0 0 with started := 1 } = false := by
  decide +kernel

/-- The hypotheses on a farm that has finished. -/
def Finished (s : State) (c : Word) : Prop :=
  s.farmAt 0 = some (farmIn s) ∧ s.plat.portUp = true ∧ s.finished (farmIn s) = true ∧ (farmIn s).record.completion = c

/-- What the controller's checks of its completion word leave. -/
def endReach : Except CStop Nat × State :=
  (ending 0x2000 id).ctlReach (farmIn (ending 0x2000 id)).ptbase (farmIn (ending 0x2000 id)).mode true 0x2000

theorem witness_FarmsEnd_complete :
    Finished (ending 0 id) 0 ∧ Finished (ending 0x2000 id) 0x2000 ∧ endReach.1 = .ok 0x20000 ∧
      Memory.wf endReach.2.mem = true ∧ endReach.2.plat = (ending 0x2000 id).plat ∧ endReach.2.readFails 0x20000 16 = false := by
  unfold Finished; decide +kernel

/-- The farm's hart is halted. -/
def haltedFarm : State := { farmed 0 id with hart := { hart0 with halted := true } }

theorem witness_FarmsEnd_fail :
    (farmIn (ending 0 fun f => { f with failing := some (3, 7) })).failing = some (3, 7) ∧ (ending 0 id).migrations = [] ∧
    (farm0 0).failing = none ∧
    ((haltedFarm.hartsIn (farm0 0)).find? (fun h => h.halted)).map (fun h => h.id) = some 0 ∧
    ∀ h ∈ (farmed 0 id).hartsIn (farm0 0), h.halted = false := by
  decide +kernel

/-! ## Witnesses: engine work -/

/-- Pieces of the page, away from the entry that maps it. -/
theorem readable_onPage (l : List (Nat × Nat)) (h : ∀ p ∈ l, p.1 + p.2 ≤ 0x3FFFF000) :
    readable (l.map fun p => onPage p.1 p.2) := by
  intro p hp
  obtain ⟨a, ha, rfl⟩ := List.mem_map.mp hp
  refine ⟨⟨_, rfl⟩, ?_⟩
  rintro k ⟨l', hl, h1, h2⟩ q hq e he
  obtain ⟨b, hb, rfl⟩ := List.mem_map.mp hq
  cases hl
  cases he
  have := h a ha
  simp only [onPage, page] at *
  omega

/-- One such piece can be written. -/
theorem writable_onPage (a n : Nat) (h : a + n ≤ 0x3FFFF000) : writable [onPage a n] :=
  ⟨readable_onPage [(a, n)] (by simpa using h), by simp⟩

/-- Work 0 of the hart, in the queue of stack 0. -/
def work (j : Job) : Work := ⟨0, 0, core0.capturedBy, false, none, j⟩

/-- It is the only work; `l` is what the page holds. -/
def working (j : Job) (l : List (Nat × List Byte)) : State :=
  { core0 with
    works := [work j], nextWork := 1
    mem := l.foldl (fun m p => writeCells m p.1 p.2) core0.mem }

/-- The hypotheses on the work itself. -/
def Works (s : State) (j : Job) (part : Nat) : Prop :=
  s.workOf 0 = some (work j) ∧ s.stalled (.engine 0 part) = false ∧ Memory.wf s.mem = true ∧ s.plat.portUp = true

/-- Work with no arrival word, and work with the one at byte 0x100 of the hart's scratchpad. -/
theorem informs_none (j : Job) (h : j.aw = 0) : (work j).informs none := Or.inl ⟨h, rfl⟩
theorem informs_word (j : Job) (h : j.aw = 0xFFFFFFF000000100) : (work j).informs (some (scratchBase 0 + 0x100)) :=
  Or.inr ⟨scratchBase 0 + 0x100, by show windowLoc core0.hart.id j.aw = _; rw [h]; decide +kernel, rfl⟩

/-- That word, and none, is clear of pieces of the page. -/
theorem clear_onPage (l : List (Nat × Nat)) (h : ∀ p ∈ l, p.1 + p.2 ≤ 0x3FFFF000) :
    clearOf none (l.map fun p => onPage p.1 p.2) ∧ clearOf (some (scratchBase 0 + 0x100)) (l.map fun p => onPage p.1 p.2) := by
  refine ⟨(fun _ _ h' => nomatch h'), ?_⟩
  intro l' k h' hk _ p hp
  obtain ⟨a, ha, rfl⟩ := List.mem_map.mp hp
  have hb : 0x40000000 ≤ scratchBase 0 := by decide +kernel
  have := h a ha
  cases h'
  refine ⟨?_, ?_⟩
  · rintro ⟨m, hm, h1, h2⟩
    cases hm
    simp only [onPage] at *
    omega
  · intro e he
    cases he
    simp only [page] at *
    omega

/-- A copy of 3 bytes from 0x3000 to 0x2000, its chunk mask m3. -/
def copyJob : Copy := ⟨[(0x2000, 0x3000, 3)], 3, 0, some (3, .c32, .fp32), [.todo]⟩
def copying : State :=
  { working (.copy copyJob) [] with hart := { hart0 with owner := hart0.owner.set 3 (some 0) } }

/-- The source of the copy reached, and then its destination. -/
def copySource := State.enginePlaces (work (.copy copyJob)) ⟨true, false, false⟩ [(0x3000, 3)] (copying.beginWork 0)
def copyTarget := State.enginePlaces (work (.copy copyJob)) ⟨false, true, false⟩ [(0x2000, 3)] copySource.2

theorem witness_CopiesAndWalksProceed_copy :
    Works copying (.copy copyJob) 0 ∧ copyJob.chunks[0]? = some .todo ∧ copyJob.total ≠ 0 ∧
      (∀ r ∈ copying.remote, r.owner ≠ .engine 0 0) ∧ copying.remote = [] ∧ copying.works.length < 16 ∧
      (∀ r ∈ copyJob.rows, r.2.2 < 2 ^ 64) ∧ totalLen [onPage 0x3000 3] = totalLen [onPage 0x2000 3] ∧
      (chunkSpans 0 copyJob.rows (256 * 0) (min 256 (copyJob.total - 256 * 0))).flatMap (fun t => spansOf t.src t.len) = [(0x3000, 3)] ∧
      (chunkSpans 0 copyJob.rows (256 * 0) (min 256 (copyJob.total - 256 * 0))).flatMap (fun t => spansOf t.dst t.len) = [(0x2000, 3)] ∧
      copySource.1 = .ok [onPage 0x3000 3] ∧ copyTarget.1 = .ok [onPage 0x2000 3] ∧ copyJob.chunkMask = some (3, .c32, .fp32) ∧
      copying.hart.owner.getD (3#5).toNat none = some 0 := by
  unfold Works; decide +kernel

theorem witness_CopiesAndWalksProceed_pieces :
    readable [onPage 0x3000 3] ∧ writable [onPage 0x2000 3] ∧ (work (.copy copyJob)).informs none ∧
      (work (.copy { copyJob with aw := 0xFFFFFFF000000100 })).informs (some (scratchBase 0 + 0x100)) ∧
      clearOf none [onPage 0x3000 3, onPage 0x2000 3] ∧
      clearOf (some (scratchBase 0 + 0x100)) [onPage 0x3000 3, onPage 0x2000 3] :=
  ⟨readable_onPage [(0x3000, 3)] (by simp), writable_onPage _ _ (by decide), informs_none _ rfl, informs_word _ rfl,
    clear_onPage [(0x3000, 3), (0x2000, 3)] (by simp)⟩

/-- A stack that runs all the copies it can, and one that runs a walk. -/
def crowded (j : Job) (n : Nat) : State :=
  { core0 with works := work j :: (List.range n).map fun k => { work j with id := k + 1, begun := true } }

/-- The copy's write to another package is under way, answered, or has failed. -/
def writing (st : RemoteStatus) : State :=
  { copying with remote := [⟨0, .engine 0 0, 0, 0x40000002000, 0x2000, 0, .write [some 1] false, st⟩] }

theorem witness_CopiesAndWalksProceed_queues :
    (let s := crowded (.copy copyJob) 16
     Works s (.copy copyJob) 0 ∧ (s.works.filter fun v => decide (v.stack = 0) && v.begun && decide (v.job.queue = some .copies)).length = 16) ∧
    (let s := crowded (.walk ⟨0x2000, 1, 0, [.todo]⟩) 1
     Works s (.walk ⟨0x2000, 1, 0, [.todo]⟩) 0 ∧
      (s.works.filter fun v => decide (v.stack = 0) && v.begun && decide (v.job.queue = some .walks)).length = 1) ∧
    ∀ st ∈ [RemoteStatus.sent, .answered [], .failed], Works (writing st) (.copy copyJob) 0 ∧
      ((writing st).remote.filter fun r => decide (r.owner = .engine 0 0) && r.kind.isWrite).map RemoteRequest.status = [st] := by
  unfold Works; decide +kernel

/-- Findings that abort the work: an address that is not canonical, and a scratchpad byte of no region. -/
theorem witness_CopiesAndWalksProceed_aborts :
    (∃ e, ((copying.beginWork 0).enginePlace (work (.copy copyJob)) ⟨true, false, false⟩ 0x8000000000000000 8).1 = .error e ∧
      (∀ lvl va, e ≠ .invalid lvl va) ∧ e ≠ .wait) ∧
    canonical 0xFFFFFFF000000100 = true ∧ windowLoc 0 0xFFFFFFF000000100 = some (scratchBase 0 + 0x100) ∧
    copying.tagged (work (.copy copyJob)).issuer.tag (scratchBase 0 + 0x100) 8 = false :=
  ⟨⟨_, rfl, by simp, by simp⟩, by decide +kernel⟩

/-- A walk of one record at 0x2000: rows of two FP32 elements, one index. -/
def walkJob : Walk := ⟨0x2000, 1, 0, [.todo]⟩
def walkRecord : List Byte :=
  toBytes 0x10000 8 ++ toBytes 4 4 ++ toBytes 2 2 ++ [1, 1] ++ toBytes 0xFFFFFFFF 4 ++ toBytes 1 4 ++ toBytes 0x5000 8 ++
    toBytes 0x6000 8 ++ List.replicate 24 0
def walking (record : List Byte) : State := working (.walk walkJob) [(0x2000, record), (0x5000, [2])]

/-- The record read, as the statement names it; the list; the rows; the places written. -/
def walkRead0 (record : List Byte) :=
  ((walking record).beginWork 0).walkRead (work (.walk walkJob)) (.engine 0 0) (0x2000 + BitVec.ofNat 64 (64 * 0)) 64
def walkLookup : Lookup := ⟨0x10000, 4, 2, .fp32, .fp32, 0xFFFFFFFF, 1, 0x5000, 0x6000, 0⟩
def walkList0 := (walkRead0 walkRecord).2.walkList (work (.walk walkJob)) (.engine 0 0) walkLookup
def walkRows0 := State.walkRows (work (.walk walkJob)) (.engine 0 0) walkLookup 0 [2] walkList0.2
def walkBack0 := State.enginePlaces (work (.walk walkJob)) ⟨false, true, false⟩
  (spansOf (0x2000 + BitVec.ofNat 64 (64 * 0) + 44) 4) walkRows0.2
def walkOut0 := State.enginePlaces (work (.walk walkJob)) ⟨false, true, false⟩ (spansOf walkLookup.out walkLookup.outBytes) walkBack0.2

theorem witness_CopiesAndWalksProceed_walk :
    Works (walking walkRecord) (.walk walkJob) 0 ∧ walkJob.done[0]? = some .todo ∧ walkJob.count ≠ 0 ∧
      (walkRead0 walkRecord).1 = .ok (walkRecord.map fun b => (b, false), [onPage 0x2000 64]) ∧
      (walkRead0 walkRecord).2.plat = (walking walkRecord).plat ∧ Lookup.ofBytes walkRecord = some walkLookup ∧
      walkList0.1 = .ok ([2], false) ∧
      walkRows0.1 = .ok [⟨List.replicate 8 (0, false), List.replicate 8 0⟩] ∧ walkBack0.1 = .ok [onPage 0x202C 4] ∧
      walkOut0.1 = .ok [onPage 0x6000 8] ∧ Memory.wf walkRows0.2.mem = true ∧ walkOut0.2.mem = walkRows0.2.mem ∧
      walkOut0.2.works = ((walking walkRecord).beginWork 0).works ∧
      (walkLookup.row [⟨List.replicate 8 (0, false), List.replicate 8 0⟩] false).length = 8 := by
  unfold Works; decide +kernel

theorem witness_CopiesAndWalksProceed_others :
    clearOf (some (scratchBase 0 + 0x100)) [onPage 0x202C 4, onPage 0x6000 8] ∧ (Works (working (.walk ⟨0x2000, 0, 0, [.todo]⟩) []) (.walk ⟨0x2000, 0, 0, [.todo]⟩) 0 ∧
      Works (walking (List.replicate 64 0)) (.walk walkJob) 0 ∧
      (walkRead0 (List.replicate 64 0)).1 = .ok (List.replicate 64 (0, false), [onPage 0x2000 64]) ∧
      Lookup.ofBytes (List.replicate 64 0) = none) ∧ writable ([onPage 0x202C 4] ++ [onPage 0x6000 8]) := by
  refine ⟨(clear_onPage [(0x202C, 4), (0x6000, 8)] (by simp)).2, by unfold Works; decide +kernel,
    readable_onPage [(0x202C, 4), (0x6000, 8)] (by simp), ?_⟩
  simp only [List.singleton_append, List.pairwise_cons, List.mem_singleton, List.not_mem_nil, IsEmpty.forall_iff, implies_true,
    List.Pairwise.nil, and_true]
  rintro q rfl k ⟨l, hl, h1, h2⟩ ⟨l', hl', h3, h4⟩
  cases hl
  cases hl'
  simp only [onPage] at *
  omega

/-- A probe or fill of one tile of 256 bytes of FP16, its key 0, of step 5. -/
def tileJob : TileJob := ⟨2, 0, 0x2000, 0x3000⟩
def actJob (fill : Bool) : ActJob := ⟨fill, 3, [tileJob], [], 5, 0x3F000000, 256, 2, 2, 0, 0⟩

/-- The directory of stack 0 holds an entry for that key. -/
def entry0 (step : BitVec 32) (replays : BitVec 8) : DirEntry := ⟨0, 0, 0, 0, 256, 2, step, replays, 1, 0⟩
def acting (a : ActJob) (dir : List DirEntry) : State :=
  { working (.act a) [(0x8000, [0, 0x3C])] with
    hart := { hart0 with owner := hart0.owner.set 3 (some 0) }
    stack := Vector.replicate 16 { Stack.reset with tlb := [page], dir := dir, useClock := 1 }
    pkg := { PackageCsrs.reset with stabase := 0x100000, stalimit := 1 } }

/-- The tile's input reached and read. -/
def tilePlace0 (a : ActJob) (dir : List DirEntry) :=
  ((acting a dir).beginWork 0).tilePlace (work (.act a)) ⟨true, false, false⟩ 0x2000 256
def tileRead0 (a : ActJob) (dir : List DirEntry) :=
  State.engineReads (work (.act a)) (.engine 0 2) [onPage 0x2000 256] (tilePlace0 a dir).2

/-- The hypotheses on a probe or a fill whose directory is `dir`. -/
def Acts (a : ActJob) (dir : List DirEntry) : Prop :=
  Works (acting a dir) (.act a) 2 ∧ a.tiles = [tileJob] ∧ (acting a dir).actTurn (work (.act a)) = true ∧
    (tilePlace0 a dir).1 = .ok ([onPage 0x2000 256], 0) ∧ (tileRead0 a dir).2.works = ((acting a dir).beginWork 0).works ∧
    ((tileRead0 a dir).2.stackAt 0).dir = dir

/-- A probe or fill with no tile, and one whose tile's address is not canonical. -/
theorem witness_TilesAreDecided_ends :
    (let a : ActJob := { actJob false with tiles := [] }
     Works (acting a []) (.act a) 2 ∧ a.settling = [] ∧ (acting a []).actTurn (work (.act a)) = true) ∧
    (let a : ActJob := { actJob false with tiles := [{ tileJob with input := 0x8000000000000000 }] }
     ∃ e, (((acting a []).beginWork 0).tilePlace (work (.act a)) ⟨true, false, false⟩ 0x8000000000000000 256).1 = .error e ∧
      (∀ lvl va, e ≠ .invalid lvl va) ∧ e ≠ .wait) ∧
    (work (.act (actJob false))).informs none ∧
    (work (.act { actJob true with aw := 0xFFFFFFF000000100 })).informs (some (scratchBase 0 + 0x100)) :=
  ⟨by unfold Works; decide +kernel, ⟨_, rfl, by simp, by simp⟩, informs_none _ rfl, informs_word _ rfl⟩

theorem witness_TilesAreDecided_probe :
    Acts (actJob false) [] ∧ Acts (actJob false) [entry0 3 0] ∧ Acts (actJob false) [entry0 4 2] ∧ Acts (actJob false) [entry0 4 1] := by
  refine ⟨?_, ?_, ?_, ?_⟩ <;> (unfold Acts Works; decide +kernel)

/-- The tile passes the metric against the stored input, or fails it: the same probe with its input at `input`. -/
def passes (input : Word) : Bool :=
  let a : ActJob := { actJob false with tiles := [{ tileJob with input := input }] }
  let r := State.engineReads (work (.act a)) (.engine 0 2) [onPage input.toNat 256] ((acting a [entry0 4 1]).beginWork 0)
  metricPasses .fp16 a.thr (r.1.map Prod.fst) (r.2.readLoc (r.2.slotLoc 0 (entry0 4 1)) 256)

theorem witness_TilesAreDecided_outcomes :
    (entry0 3 0).step ≠ (actJob false).step - 1 ∧ (entry0 4 2).step = (actJob false).step - 1 ∧
      (actJob false).cap.toNat ≤ (entry0 4 2).replays.toNat ∧ (entry0 4 1).replays.toNat < (actJob false).cap.toNat ∧
      fmtOf (actJob false).fmt = .flt .fp16 ∧ passes 0x2000 = true ∧ passes 0x8000 = false := by decide +kernel

/-- The fill's output reached. -/
def fillPlace0 :=
  (tilePlace0 (actJob true) [entry0 3 0]).2.tilePlace (work (.act (actJob true))) ⟨true, false, false⟩ 0x3000 256

theorem witness_TilesAreDecided_fill :
    Acts (actJob true) [entry0 3 0] ∧ fillPlace0.1 = .ok ([onPage 0x3000 256], 0) ∧
      2 * (actJob true).bytes ≤ (acting (actJob true) [entry0 3 0]).arenaBytes ∧
      fillPlace0.2.pkg = (acting (actJob true) [entry0 3 0]).pkg ∧
      fillPlace0.2.works = ((acting (actJob true) [entry0 3 0]).beginWork 0).works := by
  refine ⟨?_, by decide +kernel, by decide +kernel, by decide +kernel, by decide +kernel⟩
  unfold Acts Works; decide +kernel

/-- A hit that waits to be settled. -/
def settlingJob : ActJob := { actJob false with tiles := [], settling := [(tileJob, List.replicate 256 7, false)] }
def settlePlace0 := (acting settlingJob []).tilePlace (work (.act settlingJob)) ⟨false, true, false⟩ 0x3000 256

theorem witness_TilesAreDecided_settle :
    Works (acting settlingJob []) (.act settlingJob) 2 ∧
      settlingJob.settling.find? (fun t => decide (t.1.index = 2)) = some (tileJob, List.replicate 256 7, false) ∧
      settlePlace0.1 = .ok ([onPage 0x3000 256], 0) ∧ totalLen [onPage 0x3000 256] = (List.replicate 256 (7 : Byte)).length ∧
      writable [onPage 0x3000 256] ∧ settlingJob.md ≠ 0 ∧
      (acting settlingJob []).hart.owner.getD settlingJob.md.toNat none = some 0 := by
  refine ⟨?_, by decide +kernel, by decide +kernel, by decide +kernel, writable_onPage _ _ (by decide), by decide, by decide +kernel⟩
  unfold Works; decide +kernel

/-- A collective of 256 bytes on the name 7, of a group of two ranks where this package is rank 0. -/
def collJob (op : BitVec 2) (own : Option Marked) : Coll := ⟨7, 0, 0, op, 0x10000, 256, 1, 0, .supervisor, 0, [own], [.todo]⟩
def collecting (c : Coll) (ranks : List RankData) (group : List Byte) : State :=
  { working (.coll c) [(0x9000, group)] with
    pkg := { PackageCsrs.reset with cgbase := 0x9000 }
    ranks := ranks.map fun r => ((0 : BitVec 8), 7, 0, r) }

/-- The descriptor of the group, and the segment of rank 1 for an operation. -/
def twoRanks : List Byte := [2, 0, 0, 0, 0, 0, 0, 0, 0, 0xA0, 0, 0, 0, 0, 0, 0]
def part1 (op : BitVec 2) : RankData := ⟨1, op, 256, 1, 0, List.replicate 256 0, none⟩

/-- This rank's segment, read. -/
def ownPart : Marked := List.replicate 256 (0, false)

/-- The hypotheses on the collective; with no arrival word, or with one in a window. -/
def Collects (c : Coll) (ranks : List RankData) (group : List Byte) : Prop :=
  let s := collecting c ranks group
  s.workOf 0 = some (work (.coll c)) ∧ s.plat.portUp = true ∧ Memory.wf s.mem = true ∧ c.bytes % 256 = 0 ∧
    s.stalled (.engine 0 0) = false

/-- Its segment reached for writing or for reading. -/
def collPlace (write : Bool) (s : State) (c : Coll) : Except EStop (List Piece) × State :=
  State.enginePlaces ((work (.coll c)).buffered c) ⟨!write, write, false⟩ (spansOf (c.addr + BitVec.ofNat 64 (256 * 0)) 256)
    (s.beginWork 0)

theorem witness_CollectivesProgress_words :
    (work (.coll (collJob 0 none))).informs none ∧
      (work (.coll { collJob 0 none with aw := 0xFFFFFFF000000100 })).informs (some (scratchBase 0 + 0x100)) ∧
      clearOf (some (scratchBase 0 + 0x100)) [onPage 0x10000 256] ∧ clearOf none [onPage 0x10000 256] :=
  ⟨informs_none _ rfl, informs_word _ rfl, (clear_onPage [(0x10000, 256)] (by simp)).2, (clear_onPage [(0x10000, 256)] (by simp)).1⟩

theorem witness_CollectivesProgress_aborts :
    (Collects (collJob 0 none) [] [] ∧ (collecting (collJob 0 none) [] []).group 0 = none) ∧
    (Collects (collJob 0 none) [] twoRanks ∧ (collecting (collJob 0 none) [] twoRanks).group 0 = some ⟨2, 0, 0xA000⟩ ∧
      (collecting (collJob 0 none) [] twoRanks).pkg.ctimeout ≠ 0 ∧
      (collecting (collJob 0 none) [] twoRanks).partsOf (collJob 0 none) = []) ∧
    (let c := collJob 0 (some ownPart)
     Collects c [part1 1] twoRanks ∧ (collecting c [part1 1] twoRanks).partsOf c = [part1 1] ∧ (part1 1).op ≠ c.op ∧
      c.own[0]? = some (some ownPart)) ∧
    (let c := collJob 1 (some ownPart)
     Collects c [part1 1] twoRanks ∧ (collecting c [part1 1] twoRanks).partsOf c = [part1 1] ∧ c.op ≠ 0 ∧
      c.bytes % (256 * 2) ≠ 0) ∧
    ((collecting (collJob 0 none) [{ part1 0 with aborted := some 0x12 }] twoRanks).partsOf (collJob 0 none)).findSome?
      RankData.aborted = some 0x12 := by
  unfold Collects; decide +kernel

/-- The segment is sent, or its page is not there. -/
theorem witness_CollectivesProgress_sends :
    (let c := collJob 0 none
     let s := collecting c [] twoRanks
     Collects c [] twoRanks ∧ s.partsOf c = [] ∧ 0 ∈ inSegs c.op c.bytes 2 0 ∧ inSegs 1 512 2 0 = [0] ∧ c.own[0]? = some none ∧ (collPlace false s c).1 = .ok [onPage 0x10000 256] ∧
      (collPlace false s c).2.works = (s.beginWork 0).works ∧ (collPlace false s c).2.plat = s.plat ∧
      (collPlace false s c).2.readFails 0x10000 256 = false) ∧
    readable [onPage 0x10000 256] ∧
    (let s := { collecting (collJob 0 none) [] twoRanks with stack := Vector.replicate 16 Stack.reset }
     (∃ lvl va, (collPlace false s (collJob 0 none)).1 = .error (.invalid lvl va)) ∧
      (collPlace false s (collJob 0 none)).2.works = (s.beginWork 0).works) := by
  refine ⟨?_, readable_onPage [(0x10000, 256)] (by simp), ⟨_, _, rfl⟩, by decide +kernel⟩
  unfold Collects; decide +kernel

theorem witness_CollectivesProgress_ends :
    (let c := collJob 0 (some ownPart)
     let s := collecting c [part1 0] twoRanks
     Collects c [part1 0] twoRanks ∧ s.group 0 = some ⟨2, 0, 0xA000⟩ ∧ s.partsOf c = [part1 0] ∧ (part1 0).op = c.op ∧
      (part1 0).bytes = c.bytes ∧ (part1 0).fmt = c.fmt ∧ outSegs c.op c.bytes 2 0 = [0] ∧ c.out[0]? = some .todo ∧
      inRanks c.op c.bytes 2 0 = [0, 1] ∧
      (∀ r < 2, c.input ⟨2, 0, 0xA000⟩ (s.partsOf c) r 0 = some (List.replicate 256 0)) ∧
      (collPlace true s c).1 = .ok [onPage 0x10000 256] ∧ (collPlace true s c).2.works = (s.beginWork 0).works ∧
      (collPlace true s c).2.ranks = s.ranks) ∧ totalLen [onPage 0x10000 256] = 256 ∧ writable [onPage 0x10000 256] := by
  refine ⟨?_, by decide +kernel, writable_onPage _ _ (by decide)⟩
  unfold Collects; decide +kernel

/-! ## Witnesses: the fabric, the control node, boot -/

/-- Ports and links in use, a cluster-placed farm on cluster 0, and two requests to other packages. -/
def linked : State :=
  { farmed clusterBit id with
    pkg := { PackageCsrs.reset with ualinkUp := 3, ualinkX2 := 2, spinelUp := 1 }
    plat := { Platform.reset with boot := .ready, lanesLost := (Platform.reset.lanesLost.set 1 1).set 2 3 }
    remote := [⟨0, .hart 0, 0, 0x10000000000000, 0x2000, 0, .read 8, .sent⟩,
      ⟨1, .hart 0, 0, 0x10000000000000, 0x2000, 0, .write [some 1] false, .sent⟩,
      ⟨2, .brim 0, 0, 0x10000000000000, 0x2000, 0, .write [some 1] false, .sent⟩,
      ⟨3, .gone, 0, 0x10000000000000, 0x2000, 0, .read 8, .sent⟩,
      ⟨4, .farm 0, 0, 0x10000000000000, 0x2000, 0, .write [some 1] false, .sent⟩] }

theorem witness_LinksFail_links :
    linked.plat.portUp = true ∧
    (linked.plat.lanesLost[0] ||| (1#4 <<< 0) ≠ linked.plat.lanesLost[0] ∧ linked.pkg.ualinkUp.getLsbD 0 = true ∧
      linked.pkg.ualinkX2.getLsbD 0 = false) ∧
    (linked.plat.lanesLost[1] ||| (1#4 <<< 0) = linked.plat.lanesLost[1] ∧ linked.pkg.ualinkX2.getLsbD 1 = true) ∧
    (linked.plat.lanesLost[2] ||| (1#4 <<< 3) ≠ linked.plat.lanesLost[2] ∧ linked.pkg.ualinkUp.getLsbD 2 = false ∧
      3 ≤ (List.range 4).countP fun k => (linked.plat.lanesLost[2] ||| (1#4 <<< 3)).getLsbD k) ∧
    (linked.pkg.spinelUp.getLsbD 0 = true ∧ linked.pkg.spinelUp.getLsbD 1 = false) ∧
    ((0#2).toNat < (3#2).toNat ∧ linked.clusters[0].failedLinks = [] ∧ linked.clusters[0].owner = some 0 ∧
      core0.clusters[0].owner = none ∧ ((linked.hart :: linked.parked).map Hart.id).Nodup) ∧
    linked.stack[0].linkFailed = false := by decide +kernel

theorem witness_LinksFail_requests :
    linked.plat.boot = .ready ∧ linked.plat.portUp = true ∧ Memory.wf linked.mem = true ∧ linked.pkg.ualinkUp ≠ 0 ∧
    linked.dramAt 0x20000000000 = none ∧ linked.dramAt 0x2000 = some 0x2000 ∧ linked.readFails 0x2000 8 = false ∧
    0x2000 / 256 = (0x2000 + 8 - 1) / 256 ∧ 0x2004 % 8 ≠ 0 ∧ linked.dramAt 0x2004 = some 0x2004 ∧ 0x2000 % 8 = 0 ∧
    (linked.remote.find? fun q => decide (q.id = 0 ∧ q.status = .sent)).map RemoteRequest.store = some false ∧
    (linked.remote.find? fun q => decide (q.id = 0 ∧ q.status = .sent)).map (fun r => r.kind.answerOk (List.replicate 8 1)) = some true ∧
    (linked.remote.find? fun q => decide (q.id = 1 ∧ q.status = .sent)).map RemoteRequest.store = some true ∧
    (linked.remote.find? fun q => decide (q.id = 1 ∧ q.status = .sent)).map RemoteRequest.owner = some (.hart 0) ∧
    (linked.remote.find? fun q => decide (q.id = 2 ∧ q.status = .sent)).map RemoteRequest.owner = some (.brim 0) ∧
    (linked.remote.find? fun q => decide (q.id = 3 ∧ q.status = .sent)).map RemoteRequest.owner = some .gone ∧
    (linked.remote.find? fun q => decide (q.id = 4 ∧ q.status = .sent)).map (fun r => (r.owner, r.store)) = some (.farm 0, true) ∧
    linked.pkg.spinelUp ≠ 0 ∧ core0.pkg.ualinkUp = 0 ∧ core0.pkg.spinelUp = 0 ∧
    ({ linked with badUnits := [0x2000] }).readFails 0x2000 8 = true := by
  decide +kernel

/-- The platform at a step of the boot sequence. -/
def booting (b : Boot) (attests : Nat) : State :=
  { core0 with plat := { Platform.reset with boot := b, attests := List.replicate attests (1, List.replicate 32 0) } }

theorem witness_NodeMessages :
    ((booting .ready 0).plat.portUp = true ∧ Memory.wf (booting .ready 0).mem = true ∧ (booting .ready 0).plat.boot = .ready ∧
      (List.replicate 8 (0 : Byte)).length = (8#32).toNat ∧ (∀ j < 8, (booting .ready 0).dramAt (0x2000 + j) ≠ none) ∧
      (booting .ready 0).readFails 0x2000 8 = false ∧ (booting .ready 0).dramAt 0x20000000000 = none ∧
      0x2000 % 16 = 0 ∧ (booting .ready 0).dramAt 0x2000 = some 0x2000 ∧ (booting .ready 0).readFails 0x2000 16 = false) ∧
    (1 < (2 : Byte).toNat ∧ (booting .ready 0).lag = false) ∧
    ((List.replicate 32 (0 : Byte)).length = 32 ∧ (booting .ready 0).plat.attests.length < 5 ∧
      5 ≤ (booting .ready 5).plat.attests.length) ∧
    ((booting .firmware 0).plat.boot ≠ .off ∧ (booting .firmware 0).plat.boot ≠ .training ∧
      (booting .firmware 0).plat.boot ≠ .tripped ∧ (booting .firmware 0).plat.boot ≠ .ready) ∧
    (booting .off 0).plat.boot = .off ∧ (booting .tripped 0).plat.boot = .tripped ∧
    (booting .ready 1).plat.attests = [(1, List.replicate 32 0)] := by decide +kernel

/-- The bytes of messages that come in: an MREAD, its count of flits false, an unknown type, and an MGMT operation of 8. -/
theorem witness_NodeMessages_bytes :
    let header := fun (k : Byte) (flits : BitVec 16) => [k, 0] ++ lowBytes (flits.setWidth 64) 2 ++ lowBytes ((7 : BitVec 32).setWidth 64) 4
    let mread := lowBytes 0x2000 8 ++ lowBytes ((8 : BitVec 32).setWidth 64) 4 ++ List.replicate 44 0
    ((header 2 1 ++ mread).length = 64 ∧ (header 2 2 ++ mread).length = 64) ∧
      (0x05 : Byte) ∉ ([0x01, 0x02, 0x10, 0x12, 0x13, 0x30, 0x31] : List Byte) ∧
      (8 ≤ valueOf (([8, 0] ++ List.replicate 54 0 : List Byte).take 2) ∧ ([8, 0] ++ List.replicate 54 0 : List Byte).length = 56) ∧
      (booting .ready 0).plat.portUp = true ∧ (booting .ready 0).plat.boot = .ready ∧
      ({ booting .ready 0 with agenda := [.arrive (header 2 1 ++ mread)] }).agenda = [.arrive (header 2 1 ++ mread)] := by
  decide +kernel

/-- A launch message names the record at 0x2000, in the page of the tables. -/
def rooted : State :=
  { mapped 0 false with
    plat := { Platform.reset with boot := .ready }
    mem := writeCells (writeCells (mapped 0 false).mem 0x20008 (toBytes 0x2040 8)) 0x20038 (toBytes 0x100800008 8) }

theorem witness_NodeMessages_launch :
    (rooted.rootRecord 0x4000 .supervisor 0x2000).1 =
        .ok (some (FarmRecord.ofBytes (rooted.readLoc 0x20000 64), List.replicate 128 0)) ∧
      (rooted.rootRecord 0x4000 .supervisor 0x2000).2.lag = rooted.lag ∧
      (rooted.rootRecord 0x4000 .supervisor 0x2000).2.plat = rooted.plat ∧
      (rooted.rootRecord 0x4000 .supervisor 0x2000).2.ctl.launches = [] ∧ rooted.lag = false ∧ (1 : Byte).toNat ≤ 1 := by
  decide +kernel

/-- No message waits; one waits; and the page of the record at 0x2000 is being migrated. -/
theorem witness_NodeMessages_inbox :
    ((booting .ready 0).inbox = [] ∧ (booting .firmware 0).inbox = []) ∧
    (let s := { booting .ready 0 with inbox := [.identify 1] }
     s.inbox ≠ [] ∧ s.plat.portUp = true ∧ s.plat.boot ∉ [.off, .training, .tripped]) ∧
    (let s := { rooted with migrations := [⟨0, 0x2000, 0x2000, 0x1000, 0x8010, 0x2000C7, 0x30000⟩] }
     (s.rootRecord 0x4000 .supervisor 0x2000).1 = .error .wait ∧ s.inbox = [] ∧ s.plat.boot = .ready ∧ s.plat.portUp = true) := by
  decide +kernel

/-- A request to another package has no answer yet while XINV is written for every page; a port has lost three lanes. -/
theorem witness_BootAndManagement_waits :
    (let s := { distant [asked .sent] with plat := (booting .identity 0).plat }
     s.xinvBusy 0x8000000000000000 = true ∧ s.inbox = [] ∧ s.plat.boot = .identity ∧ s.plat.portUp = true) ∧
    (booting .ready 0).xinvBusy 0x8000000000000000 = false ∧
    (let s := { booting .links 0 with plat := { (booting .links 0).plat with lanesLost := Vector.replicate 18 7 } }
     2 < (List.range 4).countP (fun l => (s.plat.lanesLost[0]).getLsbD l) ∧ s.plat.boot = .links ∧ s.inbox = []) ∧
    (booting (.failed 4) 0).plat.boot ∉ [.off, .training, .tripped, .ready] ∧ (booting .links 0).plat.boot ≠ .firmware := by
  decide +kernel

theorem witness_BootAndManagement :
    (∀ b ∈ [Boot.off, .training, .firmware, .links, .identity, .ready], (booting b 0).plat.portUp = true ∧ (booting b 0).plat.boot = b) ∧
    ((1023#16).toNat ≤ 1023 ∧ 1023 < (1024#16).toNat) ∧ packageNumber 0x340 = true ∧ packageNumber 0x100 = false ∧
    (1 ≤ (4096#64).toNat ∧ (4096#64).toNat ≤ 4096 ∧ (0x3FFF000#64).toNat + (4096#64).toNat ≤ 0x4000000) ∧
    ((booting .training 0).plat.held = [] ∧ (booting .training 0).plat.lost = 0) ∧
    ¬((0x3FFF001#64).toNat + (4096#64).toNat ≤ 0x4000000) ∧ Memory.wf (booting .firmware 0).plat.firmware = true ∧
    (List.replicate 64 (0 : Byte)).length = 64 ∧ (booting .ready 0).plat.attests = [] ∧ (booting .ready 1).plat.attests ≠ [] ∧
    (booting .ready 0).farmNamed 5 = none ∧ (farmed 0 id).farmNamed 0 = some (farm0 0) ∧ (farmed 0 id).works = [] ∧
    (farmed 0 id).migrations = [] ∧ 115 ≤ (115 : Byte).toNat ∧ (114 : Byte).toNat < 115 := by decide +kernel

/-! ## Witnesses: the scalar stream, the encoding, the step -/

/-- An `addi` at the pc, and the hart's turn. -/
def turning (a : List Move) : State := { core0 with mem := writeCells core0.mem 0x1000 (toBytes 0x0021C084 4), agenda := a }

theorem witness_ScalarStreamKeepsSoundness :
    core0.sound ∧ core0.hart.still = true ∧ core0.hart.queue = [] ∧ isScalar (.addi 1 1 4) = true ∧ (turning [.turn 0]).sound ∧
      (turning [.turn 0]).agenda = [.turn 0] ∧
      (({ turning [.turn 0] with agenda := [] }).focus 0).mayIssue = true ∧
      (let z := (({ turning [.turn 0] with agenda := [] }).chosen 0)
       (z.fetchInstr z.hart.pc).1 = .ok [0x84, 0xC0, 0x21, 0x00] ∧ (z.fetchInstr z.hart.pc).2.hart.still = true ∧
        (z.fetchInstr z.hart.pc).2.hart.queue = []) := by
  refine ⟨?_, rfl, rfl, rfl, ?_, rfl, by decide +kernel, by decide +kernel⟩ <;>
    (unfold State.sound Hart.sound; decide +kernel)

theorem witness_ScalarStreamKeepsSoundness_decodes : decode [0x84, 0xC0, 0x21, 0x00] = .ok (.addi 1 1 4, []) := by decide +kernel

theorem witness_EncodingRoundTrip :
    (∀ i ∈ [Instr.addi 1 1 4, .loop 1 2 3, .cAddi 0 1, .fenceStk 15, .awadd 1 2 10, .vcvt 1 1 2 3 4 7 1, .mma 1 4 8 8 6 1 1 1],
      i.wf = true ∧ (encode i).isSome = true ∧ sharesItsWord i = false ∧ isNoWord i = false) ∧
    decode [0x84, 0xC0, 0x21, 0x00, 0x55] = .ok (.addi 1 1 4, [0x55]) := by decide +kernel

theorem witness_StepRunsDecodedInstruction :
    ((turning [.turn 0]).agenda = .turn 0 :: [] ∧ (({ turning [.turn 0] with agenda := [] }).focus 0).mayIssue = true) ∧
    (let z := ({ turning [.turn 0] with agenda := [] }).chosen 0
     (z.fetchInstr z.hart.pc).1 = .ok [0x84, 0xC0, 0x21, 0x00]) ∧
    (∃ e, decode [0, 0] = .error e) ∧ (unmapped.fetchInstr unmapped.hart.pc).1 = .error (.stall (unmapped.fetchFault 0x1000 0x1000 4)) := by
  refine ⟨⟨rfl, by decide +kernel⟩, by decide +kernel, ⟨_, rfl⟩, by decide +kernel⟩

/-- No move is given, and the harts go first: hart 0 is ready and is chosen. -/
def onItsOwn : State := { turning [] with lag := true, issueClock := 1 }

theorem witness_StepRunsDecodedInstruction_alone :
    onItsOwn.agenda = [] ∧ onItsOwn.hartsFirst = true ∧
      (onItsOwn.choice (onItsOwn.harts.filter fun k => onItsOwn.ready k.id)).map (fun h => h.id) = some 0 := by decide +kernel

/-! ## Worked examples of the spec, one step each -/

/-- The state that an instruction leaves. -/
def after (i : Instr) (s : State) : State :=
  match exec i s with
  | .next t => t
  | _ => s

/-- The examples under R94. -/
theorem test_division :
    ((after (.div 3 5 6) (withXs (-7) 2)).x 3 = -3 ∧ (after (.rem 3 5 6) (withXs (-7) 2)).x 3 = -1 ∧
      (after (.div 3 5 6) (withXs 5 0)).x 3 = 0xFFFFFFFFFFFFFFFF ∧ (after (.remn 3 5 6) (withXs 5 0)).x 3 = 5 ∧
      (after (.div 3 5 6) (withXs 0x8000000000000000 (-1))).x 3 = 0x8000000000000000 ∧
      (after (.rem 3 5 6) (withXs 0x8000000000000000 (-1))).x 3 = 0) := by decide +kernel

/-- The worked example of R103 and R104: what `loop` sets, and the back edge of the `addi` at B + 12. -/
theorem test_loop :
    (let t := after (.loop 0 5 8) (withXs 4 0)
     t.hart.csr.lcnt[0] = 4 ∧ t.hart.csr.lstart[0] = 0x1004 ∧ t.hart.csr.lend[0] = 0x1010 ∧ t.hart.pc = 0x1004) ∧
    (let t := after (.addi 5 5 4) (withHart fun h => { h with
       pc := 0x100C, csr := { h.csr with lcnt := #v[4, 0], lstart := #v[0x1004, 0], lend := #v[0x1010, 0] } })
     t.hart.csr.lcnt[0] = 3 ∧ t.hart.pc = 0x1004 ∧ t.x 5 = 4) ∧
    (let t := after (.addi 5 5 4) (withHart fun h => { h with
       pc := 0x100C, csr := { h.csr with lcnt := #v[1, 0], lstart := #v[0x1004, 0], lend := #v[0x1010, 0] } })
     t.hart.csr.lcnt[0] = 0 ∧ t.hart.pc = 0x1010) := by decide +kernel

/-- The atomic of the same example: it reads 10 and writes 10 + 4,294,967,301. -/
theorem test_amoadd :
    let t := after (.amoadd 1 6 5 1 3) { withXs 0x100000005 0 with mem := writeCells [] 0x2000 [10] }
    t.x 6 = 10 ∧ t.readLoc 0x2000 8 = [15, 0, 0, 0, 1, 0, 0, 0] := by decide +kernel

/-- R32: 300.0 and 500.0 to E4M3, 2.5 to E2M1, 0.75 to E8M0; R34: 0xFFFFFFFF to E4M3. -/
theorem test_conversions :
    convert (fmtOf 4) (fmtOf 1) 0 false 0x43960000 = (0x79, flagNX) ∧
      convert (fmtOf 4) (fmtOf 1) 0 false 0x43FA0000 = (0x7F, flagOF ||| flagNX) ∧
      convert (fmtOf 4) (fmtOf 1) 0 true 0x43FA0000 = (0x7E, flagOF ||| flagNX) ∧
      convert (fmtOf 6) (fmtOf 1) 0 false 0x40200000 = (4, flagNX) ∧
      convert (fmtOf 7) (fmtOf 1) 0 false 0x3F400000 = (0x7E, flagNX) ∧
      (ofInteger .e4m3 0 false 0xFFFFFFFF).1 = 0x7F ∧ (ofInteger .e4m3 0 true 0xFFFFFFFF).1 = 0x7E := by decide +kernel

/-- R36: the tree over 2^24, 1, 1, −2^24 gives 1.0 and NX; the later levels of 512 pass it up. -/
theorem test_tree :
    treeFold (fun x y => fAdd .fp32 0 x y) 3
      [some 0x4B800000, some 0x3F800000, some 0x3F800000, some 0xCB800000, none, none, none, none] =
    (some 0x3F800000, flagNX) := by decide +kernel

/-- The example under R71: `vcfg x9, 32, e16, alt`, and element 1 of 1.0 read as BF16; then `vcfg x9, 8, e4`. -/
theorem test_vcfg :
    let s := withHart fun h => { h with v := h.v.set 24 (BitVec.ofNat 2048 0x3F8000003F800000) }
    let t := after (.vcfg 9 2 2 1) s
    t.x 9 = 1024 ∧ t.elem false 3 0 = 0 ∧ t.elem false 3 1 = 0x3F80 ∧ (after (.vcfg 9 0 0 0) t).x 9 = 16384 ∧
      (after (.vcfg 9 0 0 0) t).hart.v[24] = 0 := by decide +kernel

/-- The saturating narrowing under R127: its bytes and its flags. -/
theorem test_narrowing :
    let t := after (.vcvt 0 4 1 3 2 1 0) (withHart fun h => { h with
      v := (h.v.set 16 (BitVec.ofNat 2048 (0x43960000 + 0x43FA0000 * 2 ^ 32 + 0xBC23D70A * 2 ^ 64 + 0x7FC00000 * 2 ^ 96))).set 24
        (BitVec.ofNat 2048 0xAAAAAAAAAA)
      m := h.m.set 1 0x1111, csr := { h.csr with fpctl := 8 } })
    (t.hart.v[24]).extractLsb' 0 40 = 0xAA7F857E79 ∧ t.hart.csr.fpctl = 0xE8 := by decide +kernel

/-- One mask under three widths, after R134: m2 holds bits 12, 36 and 160. -/
def masked (e : Elem) : State :=
  withHart fun h => { h with
    elem := e, m := h.m.set 2 (2 ^ 12 + 2 ^ 36 + 2 ^ 160), x := h.x.set 6 9, csr := { h.csr with ffx := 10 } }

theorem test_masks :
    ((after (.mpop 5 2 0) (masked .fp32)).x 5 = 3 ∧ (after (.mpop 5 2 0) (masked .e2m1)).x 5 = 6) ∧
    ((after (.mfirst 5 2 0) (masked .fp32)).x 5 = 3 ∧ (after (.mfirst 5 2 0) (masked .e4m3)).x 5 = 12 ∧
      (after (.mfirst 5 2 0) (masked .e2m1)).x 5 = 24) ∧
    (after (.mbrk 3 2 0) (masked .fp32)).hart.mask 3 = 2 ^ 36 + 2 ^ 160 ∧
    ((after (.mff 4 2 0) (masked .fp32)).hart.mask 4 = 2 ^ 12 + 2 ^ 36 ∧ (after (.mff 4 2 0) (masked .e2m1)).hart.mask 4 = 0) ∧
    (after (.mbclr 2 6) (masked .fp32)).hart.mask 2 = 2 ^ 12 + 2 ^ 160 := by decide +kernel

/-- The example of `vsprs v10, v2` under R141, on FP16: its first group. -/
theorem test_sparse :
    let t := after (.convoyGroupCommit 0) (after (.vsprs 0 10 2 0 0) { withHart (fun h => { h with
      elem := .fp16
      v := h.v.set 16 (BitVec.ofNat 2048 (0x38004000C2003C00 + 0x3400340080000000 * 2 ^ 64 + 0x3C007E0045007E00 * 2 ^ 128)) }) with lag := true })
    (t.hart.v[80]).extractLsb' 0 128 = 0x00000000_7E007E00_34003400_4000C200 ∧ (t.hart.v[88]).extractLsb' 0 16 = 0x48E9 := by
  decide +kernel

/-- The arrival word under R196: contributions of 2,048 and 3,072 bytes to 3,072 of 4,096, and to 1,024. -/
theorem test_arrival :
    (after (.awadd 1 5 0) { withXs 2048 0 with mem := writeCells [] 0x2000 (toBytes 3072 4 ++ toBytes 4096 4 ++ toBytes 6 4) }).readLoc
        0x2000 16 = toBytes 1024 4 ++ toBytes 4096 4 ++ toBytes 7 4 ++ toBytes 1 4 ∧
    (after (.awadd 1 5 0) { withXs 3072 0 with
        mem := writeCells [] 0x2000 (toBytes 1024 4 ++ toBytes 4096 4 ++ toBytes 7 4 ++ toBytes 1 4) }).readLoc 0x2000 16 =
      toBytes 0 4 ++ toBytes 4096 4 ++ toBytes 8 4 ++ toBytes 1 4 := by decide +kernel

/-- The worked example of the matrix engine: `mma.f16.f16.ovw t0, v4, v8` with M = 2 and N = 3. -/
def product : State :=
  let row1 : Nat := (List.range 16).foldr (fun k a => a * 65536 +
    ([0, 0x3C00, 0x4000, 0x4200, 0x4400, 0x4500, 0x4600, 0x4700, 0x4800, 0x4880, 0x4900, 0x4980, 0x4A00, 0x4A80, 0x4B00,
      0x4B80].getD k 0)) 0
  let row0 : Nat := (List.range 16).foldr (fun _ a => a * 65536 + 0x3C00) 0
  let b : BitVec 2048 := BitVec.ofNat 2048 (0x3C003C00 + 0xBC003C00 * 2 ^ 32 + 0x00010001 * 2 ^ 64)
  after (.mma 0 4 8 2 2 0 0 1) (withHart fun h => { h with
    v := (List.range 8).foldl (fun v j => v.setIfInBounds (64 + 8 * j) b) (h.v.set 32 (BitVec.ofNat 2048 (row0 + row1 * 2 ^ 256)))
    csr := { h.csr with mshp := 0x201 } })

theorem test_product :
    (product.hart.tile[0]).extractLsb' 0 128 = 0x00000000_35800000_00000000_41800000 ∧
      (product.hart.tile[1]).extractLsb' 0 128 = 0x00000000_36F00000_C1000000_42F00000 ∧ product.hart.tile[2] = 0 := by
  decide +kernel

/-- The cluster sum of R254 to R256: its four words, and the address of core 0's staging as core 1 reaches it through
aperture 0. -/
theorem test_cluster_words :
    (∀ p ∈ ([(0x0241D801, .vld 0 1 18 0 1), (0x0161D980, .vst 0 1 11 0 0), (0x0180DC20, .carrive 0 12), (0x0000DC28, .cwait 0 0)] :
      List (Nat × Instr)), decodeTableWord 32 p.1 = some p.2) ∧
    windowLoc 4 (0xFFFFFFF000000000 + 0x100000000 + 2048) = some (scratchBase 0 + 2048) := by decide +kernel

/-- Its reduction: 1.25 in every even and 3.25 in every odd element of v1 give 1,152 in e8, and no flag. -/
theorem test_cluster_sum :
    let pairs : Group := BitVec.ofNat 2048 ((List.range 32).foldl (fun a _ => a * 2 ^ 64 + 0x405000003FA00000) 0)
    let s := withHart fun h => { h with v := (List.range 8).foldl (fun v g => v.setIfInBounds (8 + g) pairs) h.v }
    let t := after (.vfredsum 0 8 1 0 0) s
    t.x 8 = 0x44900000 ∧ t.hart.csr.fpctl = s.hart.csr.fpctl := by decide +kernel

/-- R170: `ecall` in user mode saves the next address and goes to TVEC in supervisor mode, unless it is delegated. -/
theorem test_ecall :
    let t := after .ecall (withHart fun h => { h with mode := .user, csr := { h.csr with tvec := 0x8000 } })
    t.hart.pc = 0x8000 ∧ t.hart.mode = .supervisor ∧ t.hart.csr.tepc = 0x1004 ∧ t.hart.csr.tcause = BitVec.ofNat 64 (Cause.code .ecallU) := by
  decide +kernel

end Sys2Proof.Tests
end

namespace Sys2Proof.Machine

/-! ## How a scalar computation ends (R92, R104) -/

/-- Falling through with a register write changes that register alone among the x registers. -/
theorem State.fallTo_setX_wroteX (s : State) (next : Word) (d : BitVec 5) (v : Word) :
    s.wroteX (s.fallTo next fun t => t.setX d v) d v :=
  ⟨by rw [State.fallTo_x, if_pos rfl], fun r ne => by rw [State.fallTo_x, if_neg ne]⟩

/-- A register write keeps the pc, the loop counts and the reissue group that falling through leaves. -/
theorem State.fallTo_setX_fellThrough (s : State) (len : Nat) (d : BitVec 5) (v : Word) :
    s.fellThrough (s.fallTo (s.nextPc len) fun t => t.setX d v) len := by
  rw [State.fallTo_eq]
  exact ⟨rfl, by simp only [State.setPc_csr, State.setX_hart, Hart.set_csr], Hart.set_reissue _ _ _⟩

/-- The frame of a register write that falls through. -/
theorem State.fallTo_setX_onlyXs (s : State) (next : Word) (d : BitVec 5) (v : Word) :
    s.onlyXs (s.fallTo next fun t => t.setX d v) := by
  rw [State.fallTo_eq]
  refine ⟨?_, fun _ => rfl⟩
  unfold State.setX State.setPc
  rw [Hart.set_eq]

/-- An instruction that computes `v` from x registers delivers `v` once nothing hinders it. -/
theorem Gives.of_compute {i : Instr} {s : State} {len : Nat} {d : BitVec 5} {srcs : List (BitVec 5)} {v w : Word}
    (free : s.unhindered len (d :: srcs)) (run : exec i s = .next (s.compute len d srcs v)) (value : v = w) :
    Gives i s len d w := by
  obtain ⟨busy, edge⟩ := free
  subst value
  refine ⟨_, run, ?_⟩
  rw [State.compute_eq s len d srcs v busy edge]
  exact ⟨s.fallTo_setX_wroteX _ d v, s.fallTo_setX_fellThrough len d v, s.fallTo_setX_onlyXs _ d v⟩

/-! ## Division at every width (R94) -/

/-- The bits of a vector, read as a signed integer of its width, are its signed value. -/
theorem intOf_toNat {w : Nat} (x : BitVec w) : intOf w true x.toNat = x.toInt := by
  cases w with
  | zero => simp [intOf, BitVec.of_length_zero]
  | succ n =>
    have double : 2 ^ (n + 1) = 2 * 2 ^ n := Nat.pow_succ'
    unfold intOf
    rw [BitVec.toInt_eq_toNat_cond]
    by_cases top : 2 ^ n ≤ x.toNat
    · simp [top, show ¬2 * x.toNat < 2 ^ (n + 1) by omega]
    · simp [top, show 2 * x.toNat < 2 ^ (n + 1) by omega]

/-- Wrapping an integer to `w` bits goes by its residue modulo 2^w (R7). -/
theorem ofNat_toNat_emod (w : Nat) (z : Int) : BitVec.ofNat w (z % (2 ^ w : Int)).toNat = BitVec.ofInt w z := by
  rw [BitVec.ofInt, BitVec.ofNatLT_eq_ofNat]
  rfl

theorem toNat_eq_zero_iff_eq_zero {w : Nat} (y : BitVec w) : y.toNat = 0 ↔ y = 0 :=
  ⟨fun h => BitVec.eq_of_toNat_eq (by simpa using h), fun h => by simp [h]⟩

theorem ofNat_two_pow_sub_one (w : Nat) : BitVec.ofNat w (2 ^ w - 1) = BitVec.allOnes w := by
  rw [BitVec.allOnes, BitVec.ofNatLT_eq_ofNat]

/-- The signed quotient; the most negative value divided by -1 is the dividend itself. -/
theorem ofNat_divS {w : Nat} (x y : BitVec w) :
    BitVec.ofNat w (divS w x.toNat y.toNat) =
      if y = 0 then BitVec.allOnes w
      else if x.toInt = -2 ^ (w - 1) ∧ y.toInt = -1 then x
      else BitVec.ofInt w (x.toInt.tdiv y.toInt) := by
  unfold divS
  rw [intOf_toNat, intOf_toNat, apply_ite (BitVec.ofNat w), apply_ite (BitVec.ofNat w), ofNat_toNat_emod,
    BitVec.ofNat_toNat, BitVec.setWidth_eq, ofNat_two_pow_sub_one]
  simp only [toNat_eq_zero_iff_eq_zero]

/-- The remainder that goes with truncation takes the sign of the dividend. -/
theorem ofNat_remS {w : Nat} (x y : BitVec w) :
    BitVec.ofNat w (remS w x.toNat y.toNat) =
      if y = 0 then x
      else if x.toInt = -2 ^ (w - 1) ∧ y.toInt = -1 then 0
      else BitVec.ofInt w (x.toInt.tmod y.toInt) := by
  unfold remS
  rw [intOf_toNat, intOf_toNat, apply_ite (BitVec.ofNat w), apply_ite (BitVec.ofNat w), ofNat_toNat_emod,
    BitVec.ofNat_toNat, BitVec.setWidth_eq]
  simp only [toNat_eq_zero_iff_eq_zero]
  rfl

theorem ofNat_divN {w : Nat} (x y : BitVec w) :
    BitVec.ofNat w (divN w x.toNat y.toNat) =
      if y = 0 then BitVec.allOnes w else BitVec.ofNat w (x.toNat / y.toNat) := by
  unfold divN
  rw [apply_ite (BitVec.ofNat w), ofNat_two_pow_sub_one]
  simp only [toNat_eq_zero_iff_eq_zero]

theorem ofNat_remN {w : Nat} (x y : BitVec w) :
    BitVec.ofNat w (remN x.toNat y.toNat) = if y = 0 then x else BitVec.ofNat w (x.toNat % y.toNat) := by
  unfold remN
  rw [apply_ite (BitVec.ofNat w), BitVec.ofNat_toNat, BitVec.setWidth_eq]
  simp only [toNat_eq_zero_iff_eq_zero]

/-! ## Operations on bit vectors as arithmetic, at every width (R95) -/

theorem sub_eq_ofInt {w : Nat} (x y : BitVec w) : x - y = BitVec.ofInt w (x.toNat - y.toNat) := by
  rw [Int.sub_eq_add_neg, BitVec.ofInt_add, BitVec.ofInt_neg, BitVec.ofInt_natCast, BitVec.ofInt_natCast,
    BitVec.ofNat_toNat, BitVec.ofNat_toNat, BitVec.setWidth_eq, BitVec.setWidth_eq, BitVec.sub_eq_add_neg]

theorem mul_eq_ofNat {w : Nat} (x y : BitVec w) : x * y = BitVec.ofNat w (x.toNat * y.toNat) := rfl

theorem shiftLeft_eq_ofNat {w : Nat} (x : BitVec w) (n : Nat) : x <<< n = BitVec.ofNat w (x.toNat * 2 ^ n) := by
  apply BitVec.eq_of_toNat_eq
  rw [BitVec.toNat_shiftLeft, BitVec.toNat_ofNat, Nat.shiftLeft_eq]

theorem ushiftRight_eq_ofNat {w : Nat} (x : BitVec w) (n : Nat) : x >>> n = BitVec.ofNat w (x.toNat / 2 ^ n) := by
  apply BitVec.eq_of_toNat_eq
  rw [BitVec.toNat_ushiftRight, BitVec.toNat_ofNat, Nat.shiftRight_eq_div_pow,
    Nat.mod_eq_of_lt ((Nat.div_le_self _ _).trans_lt x.isLt)]

theorem sshiftRight_eq_ofInt {w : Nat} (x : BitVec w) (n : Nat) :
    x.sshiftRight n = BitVec.ofInt w (x.toInt / 2 ^ n) := by
  rw [BitVec.sshiftRight_eq, Int.shiftRight_eq_div_pow]
  push_cast
  rfl

/-! ## The results of the instructions (R94, R95)

The 32-bit forms are the operations above at width 32, sign-extended. The extension goes into the branches of the corners,
where all ones of 32 bits become all ones of 64. -/

/-- R94 writes the remainder as what the truncated quotient leaves of the dividend. -/
theorem remValue_eq (a b : Word) : remValue a b =
    if b = 0 then a
    else if a.toInt = -2 ^ 63 ∧ b.toInt = -1 then 0
    else BitVec.ofInt 64 (a.toInt - b.toInt * a.toInt.tdiv b.toInt) := by
  rw [remValue, ofNat_remS, Int.tmod_def]

theorem extractLsb'_eq_low32 (a : Word) : a.extractLsb' 0 32 = low32 a :=
  (BitVec.setWidth_eq_extractLsb' (by decide)).symm

/-- The amount of a 32-bit shift is read from the low half. -/
theorem low32_toNat_mod (b : Word) : (low32 b).toNat % 32 = b.toNat % 32 := by
  rw [low32, BitVec.toNat_setWidth, Nat.mod_mod_of_dvd _ (by decide)]

theorem divwValue_eq (a b : Word) : divwValue a b =
    if low32 b = 0 then BitVec.allOnes 64
    else if (low32 a).toInt = -2 ^ 31 ∧ (low32 b).toInt = -1 then (low32 a).signExtend 64
    else (BitVec.ofInt 32 ((low32 a).toInt.tdiv (low32 b).toInt)).signExtend 64 := by
  rw [divwValue, ofNat_divS, sext, apply_ite (BitVec.signExtend 64), apply_ite (BitVec.signExtend 64)]
  rfl

theorem remwValue_eq (a b : Word) : remwValue a b =
    if low32 b = 0 then (low32 a).signExtend 64
    else if (low32 a).toInt = -2 ^ 31 ∧ (low32 b).toInt = -1 then 0
    else (BitVec.ofInt 32 ((low32 a).toInt.tmod (low32 b).toInt)).signExtend 64 := by
  rw [remwValue, ofNat_remS, sext, apply_ite (BitVec.signExtend 64), apply_ite (BitVec.signExtend 64)]
  rfl

theorem divnwValue_eq (a b : Word) : divnwValue a b =
    if low32 b = 0 then BitVec.allOnes 64
    else (BitVec.ofNat 32 ((low32 a).toNat / (low32 b).toNat)).signExtend 64 := by
  rw [divnwValue, ofNat_divN, sext, apply_ite (BitVec.signExtend 64)]
  rfl

theorem remnwValue_eq (a b : Word) : remnwValue a b =
    if low32 b = 0 then (low32 a).signExtend 64
    else (BitVec.ofNat 32 ((low32 a).toNat % (low32 b).toNat)).signExtend 64 := by
  rw [remnwValue, ofNat_remN, sext, apply_ite (BitVec.signExtend 64)]

/-- Settles O2: each form is `compute` of a value, which falls through with one register written, and each value is the
division of its width (64, or 32 and sign-extended) with the corners of R94. -/
theorem divisionResults : Obligations.DivisionResults := by
  unfold Obligations.DivisionResults
  refine ⟨fun s d a b free => ⟨?_, ?_, ?_, ?_⟩, fun s d a b free => ?_⟩
  · exact .of_compute free rfl (ofNat_divS _ _)
  · exact .of_compute free rfl (remValue_eq _ _)
  · exact .of_compute free rfl (ofNat_divN _ _)
  · exact .of_compute free rfl (ofNat_remN _ _)
  · simp only [extractLsb'_eq_low32, low32_toNat_mod]
    refine ⟨?_, ?_, ?_, ?_, ?_, ?_, ?_, ?_, ?_, ?_⟩
    · exact .of_compute free rfl (congrArg sext (BitVec.add_def _ _))
    · exact .of_compute free rfl (congrArg sext (sub_eq_ofInt _ _))
    · exact .of_compute free rfl (congrArg sext (shiftLeft_eq_ofNat _ _))
    · exact .of_compute free rfl (congrArg sext (ushiftRight_eq_ofNat _ _))
    · exact .of_compute free rfl (congrArg sext (sshiftRight_eq_ofInt _ _))
    · exact .of_compute free rfl (congrArg sext (mul_eq_ofNat _ _))
    · exact .of_compute free rfl (divwValue_eq _ _)
    · exact .of_compute free rfl (remwValue_eq _ _)
    · exact .of_compute free rfl (divnwValue_eq _ _)
    · exact .of_compute free rfl (remnwValue_eq _ _)

end Sys2Proof.Machine

namespace Sys2Proof.Machine

/-! ## How an instruction that writes a mask ends (R73, R135) -/

/-- Falling through with a mask write, as one update of the hart: the masks, the loop counts, the reissue group, the pc. -/
theorem State.fallTo_setMask_eq (s : State) (next : Word) (d : BitVec 5) (v : Mask) :
    (s.fallTo next fun t => t.onHart fun h => h.setMask d v) = { s with hart := { s.hart with
      m := (s.hart.setMask d v).m
      csr := { s.hart.csr with lcnt := (s.hart.csr.fallThrough s.hart.pc next).2.lcnt }
      reissue := 0
      pc := (s.hart.csr.fallThrough s.hart.pc next).1 } } := by
  rw [State.fallTo_eq, State.onHart, State.setPc, Hart.setMask_eq]
  by_cases zero : d = 0
  · simp only [Hart.setMask, if_pos zero]
  · simp only [Hart.setMask, if_neg zero]

/-- The masks after falling through with a mask write. -/
theorem State.fallTo_setMask_mask (s : State) (next : Word) (d r : BitVec 5) (v : Mask) :
    (s.fallTo next fun t => t.onHart fun h => h.setMask d v).hart.mask r = (s.hart.setMask d v).mask r := by
  rw [State.fallTo_setMask_eq]
  rfl

/-- A mask instruction that nothing hinders falls through with its mask written. -/
theorem State.maskWrite_eq (s : State) (d : BitVec 5) (xs ms : List (BitVec 5)) (v : Mask) (free : s.maskFree d xs ms) :
    s.maskWrite d xs ms v = s.fallTo (s.nextPc 4) fun t => t.onHart fun h => h.setMask d v := by
  obtain ⟨freeX, freeMask, unowned, edge⟩ := free
  simp only [State.maskWrite, freeX, freeMask, unowned, State.complete_eq _ _ _ edge, Bool.or_self,
    Option.isSome_none, Bool.false_eq_true, if_false]

/-- A mask instruction that nothing hinders delivers the mask that it writes. -/
theorem GivesMask.of_maskWrite {i : Instr} {s : State} {d : BitVec 5} {xs ms : List (BitVec 5)} {v : Mask}
    (declared : d.toNat < 24) (free : s.maskFree d xs ms) (run : exec i s = .next (s.maskWrite d xs ms v)) :
    GivesMask i s d v := by
  refine ⟨_, run, ?_⟩
  rw [State.maskWrite_eq s d xs ms v free]
  refine ⟨?_, fun r ne => ?_, ?_, fun r => ?_, ?_⟩
  · rw [State.fallTo_setMask_mask, Hart.mask_setMask_self _ _ declared]
  · rw [State.fallTo_setMask_mask, Hart.mask_setMask_other _ _ ne]
  · rw [State.fallTo_setMask_eq]
    exact ⟨rfl, rfl, rfl⟩
  · rw [State.fallTo_setMask_eq]
    rfl
  · rw [State.fallTo_setMask_eq]
    exact ⟨rfl, fun _ => rfl⟩

/-- With no convoy in flight, a mask instruction whose mask engine work owns raises OWNED. -/
theorem Traps.of_maskWrite {i : Instr} {s : State} {d : BitVec 5} {xs ms : List (BitVec 5)} {v : Mask} {id : Nat}
    (crown : s.hart.convoys = []) (brim : s.hart.brimConvoys = []) (owned : s.hart.owner.getD d.toNat none = some id)
    (run : exec i s = .next (s.maskWrite d xs ms v)) : Traps i s .owned (d.setWidth 64) := by
  have freeX : s.hart.busyX xs = false := by simp [Hart.busyX, Hart.flying, crown, brim]
  have freeMask : s.hart.busyMask (d :: ms) = false := by simp [Hart.busyMask, crown]
  have refused : s.maskWrite d xs ms v = s.refuse .owned (d.setWidth 64) := by
    simp [State.maskWrite, freeX, freeMask, owned]
  have trapped : s.refuse .owned (d.setWidth 64) = s.trap (s.scalarTrap .owned (d.setWidth 64)) := by
    simp [State.refuse, State.stopAt, crown]
  exact run.trans (congrArg Host.Outcome.next (refused.trans trapped))

/-- An instruction that reads masks and computes `v` delivers `v` once nothing hinders it. -/
theorem Gives.of_maskRead {i : Instr} {s : State} {d a : BitVec 5} {g : BitVec 3} {v w : Word}
    (free : s.unhindered 4 [d]) (freeMask : s.hart.busyMask [a, g.setWidth 5] = false)
    (run : exec i s = .next (s.maskRead d a g v)) (value : v = w) : Gives i s 4 d w := by
  have computes : s.maskRead d a g v = s.compute 4 d [] v := by simp [State.maskRead, freeMask]
  exact .of_compute free (run.trans (congrArg Host.Outcome.next computes)) value

/-! ## Elements and their governing bits (R72, R134) -/

/-- Above SEW 4 an element is of whole bytes, so scaling its number by the width and by its bytes is the same. -/
theorem govBit_eq_governing (e : Elem) (i : Nat) : govBit e.width i = governing e.width i := by
  unfold govBit governing
  by_cases half : e.width = 4
  · rw [if_pos half, if_pos half]
  · have bytes : 8 ∣ e.width := by revert half; cases e <;> decide
    rw [if_neg half, if_neg half, Nat.mul_div_assoc _ bytes]

/-- An element's number fits an x register. -/
theorem Hart.vmax_lt_word (h : Hart) : h.vmax < 2 ^ 64 := by
  have groups : h.count.groups ≤ 32 := by cases h.count <;> decide
  calc h.vmax ≤ 8 * (256 * h.count.groups) := Nat.div_le_self _ _
    _ < 2 ^ 64 := by omega

/-- The mask of the element that a register names has that element's governing bit alone, and none from VMAX on. -/
theorem Hart.getLsbD_elemBit (h : Hart) (x : Word) {k : Nat} (lt : k < 8192) :
    (h.elemBit x).getLsbD k = decide (x.toNat < h.vmax ∧ k = governing h.elem.width x.toNat) := by
  unfold Hart.elemBit
  by_cases below : x.toNat < h.vmax
  · rw [if_pos below, govBit_eq_governing, BitVec.natCast_eq_ofNat, BitVec.getLsbD_ofNat, Nat.one_shiftLeft,
      Nat.testBit_two_pow]
    simp only [lt, below, true_and, decide_true, Bool.true_and, eq_comm]
  · simp [below]

theorem Hart.elemsOf_eq (h : Hart) (m : Mask) :
    h.elemsOf m = (List.range h.vmax).filter fun i => m.getLsbD (governing h.elem.width i) := by
  simp only [Hart.elemsOf, govBit_eq_governing]

theorem Hart.length_elemsOf (h : Hart) (m : Mask) :
    (h.elemsOf m).length = (List.range h.vmax).countP fun i => m.getLsbD (governing h.elem.width i) := by
  rw [Hart.elemsOf_eq, List.countP_eq_length_filter]

theorem Hart.head?_elemsOf (h : Hart) (m : Mask) :
    (h.elemsOf m).head? = (List.range h.vmax).find? fun i => m.getLsbD (governing h.elem.width i) := by
  rw [Hart.elemsOf_eq, List.head?_filter]

/-- Clearing the element that a found number names clears its governing bit: the number is below VMAX and fits a word. -/
theorem Hart.getLsbD_clearElem (h : Hart) (m : Mask) {i k : Nat} (found : i < h.vmax) (lt : k < 8192) :
    (m &&& ~~~h.elemBit (BitVec.ofNat 64 i)).getLsbD k = (m.getLsbD k && !decide (k = governing h.elem.width i)) := by
  have value : (BitVec.ofNat 64 i).toNat = i := by
    rw [BitVec.toNat_ofNat, Nat.mod_eq_of_lt (found.trans h.vmax_lt_word)]
  rw [BitVec.getLsbD_and, BitVec.getLsbD_not, Hart.getLsbD_elemBit h _ lt, value]
  simp only [lt, found, true_and, decide_true, Bool.true_and]

/-! ## The element mask instructions (R134) -/

theorem mbset_gives {s : State} {d x : BitVec 5} (declared : d.toNat < 24) (free : s.maskFree d [x] []) :
    ∃ v, GivesMask (.mbset d x) s d v ∧ ∀ k < 8192, v.getLsbD k = ((s.hart.mask d).getLsbD k ||
      decide ((s.x x).toNat < s.hart.vmax ∧ k = governing s.hart.elem.width (s.x x).toNat)) :=
  ⟨s.hart.mask d ||| s.hart.elemBit (s.x x), .of_maskWrite declared free rfl, fun k lt => by
    rw [BitVec.getLsbD_or, Hart.getLsbD_elemBit _ _ lt]⟩

theorem mbclr_gives {s : State} {d x : BitVec 5} (declared : d.toNat < 24) (free : s.maskFree d [x] []) :
    ∃ v, GivesMask (.mbclr d x) s d v ∧ ∀ k < 8192, v.getLsbD k = ((s.hart.mask d).getLsbD k &&
      !decide ((s.x x).toNat < s.hart.vmax ∧ k = governing s.hart.elem.width (s.x x).toNat)) :=
  ⟨s.hart.mask d &&& ~~~s.hart.elemBit (s.x x), .of_maskWrite declared free rfl, fun k lt => by
    rw [BitVec.getLsbD_and, BitVec.getLsbD_not, Hart.getLsbD_elemBit _ _ lt, decide_eq_true lt, Bool.true_and]⟩

/-- The element whose governing bit `mbrk` clears is the one that `mfirst` finds. -/
theorem mbrk_gives {s : State} {d a : BitVec 5} {g : BitVec 3} (declared : d.toNat < 24)
    (free : s.maskFree d [] [a, g.setWidth 5]) {first : Option Nat}
    (found : (List.range s.hart.vmax).find? (fun i =>
      (s.hart.mask a &&& s.hart.mask (g.setWidth 5)).getLsbD (governing s.hart.elem.width i)) = first) :
    ∃ v, GivesMask (.mbrk d a g) s d v ∧ ∀ k < 8192, v.getLsbD k =
      ((s.hart.mask a &&& s.hart.mask (g.setWidth 5)).getLsbD k &&
        !first.any fun i => decide (k = governing s.hart.elem.width i)) := by
  refine ⟨_, .of_maskWrite declared free rfl, fun k lt => ?_⟩
  simp only [State.gov, Hart.head?_elemsOf, found]
  cases first with
  | none => simp only [Option.any_none, Bool.not_false, Bool.and_true]
  | some i =>
    have below : i < s.hart.vmax := List.mem_range.1 (List.mem_of_find?_eq_some found)
    exact Hart.getLsbD_clearElem _ _ below lt

/-- `mff` waits for the convoys of both banks, and then writes its mask as every mask instruction does (R133). -/
theorem exec_mff_of_still {s : State} {d a : BitVec 5} {g : BitVec 3} (still : s.hart.still = true) :
    exec (.mff d a g) s =
      .next (s.maskWrite d [] [a, g.setWidth 5] (s.hart.mask a &&& s.gov g &&& s.hart.belowFfx)) := by
  change execMff d a g s = _
  simp [execMff, still]

/-- Settles O24: the writers of masks end as `maskWrite` does and the readers as `maskRead`, and the elements that they
speak of are those of the governing bits. -/
theorem maskElementResults : Obligations.MaskElementResults := by
  unfold Obligations.MaskElementResults
  refine ⟨fun s d a x g declared => ⟨fun free => ⟨mbset_gives declared free, mbclr_gives declared free⟩,
    fun free freeMask => ⟨?mpop, ?mfirst⟩, fun free => ?mbrk⟩, fun s d a b g id crown brim owned => ?owned⟩
  case mpop => exact .of_maskRead free freeMask rfl (congrArg (BitVec.ofNat 64) (Hart.length_elemsOf _ _))
  case mfirst =>
    refine .of_maskRead free freeMask rfl ?_
    rw [Hart.head?_elemsOf]
    simp only [State.gov]
    cases List.find? _ (List.range s.hart.vmax) with
    | none => exact BitVec.neg_one_eq_allOnes
    | some i => rfl
  case mbrk =>
    obtain ⟨v, gives, bits⟩ := mbrk_gives declared free rfl
    refine ⟨v, gives, fun k lt => ?_⟩
    rw [bits k lt]
    cases List.find? _ (List.range s.hart.vmax) <;> rfl
  case owned =>
    have still : s.hart.still = true := by simp [Hart.still, crown, brim]
    have traps {i : Instr} {xs ms : List (BitVec 5)} {v : Mask} (run : exec i s = .next (s.maskWrite d xs ms v)) :
        Traps i s .owned (d.setWidth 64) := .of_maskWrite crown brim owned run
    exact ⟨traps rfl, traps rfl, traps rfl, traps rfl, traps rfl, traps rfl, traps rfl, traps rfl, traps rfl, traps rfl,
      traps (exec_mff_of_still still), traps rfl, traps rfl, traps rfl, traps rfl, traps rfl⟩

end Sys2Proof.Machine
